-- ==== Sys2Proof/Word.lean ====
section
/-! DEFINITION. The widths the spec gives its values (00_scope.md R9). -/

namespace Sys2Proof

/-- A source byte, a raster byte or a luma (R9). -/
abbrev Byte := BitVec 8

/-- A register value or a command word (R9, R20). -/
abbrev Word := BitVec 32

/-- A byte offset on the register bus (R60). -/
abbrev Offset := BitVec 20

/-- A 16-bit two's-complement accumulator cell (R45). -/
abbrev Cell := BitVec 16

end Sys2Proof
end

