-- ==== Sys2Proof/Syntax.lean ====
section
/-! DEFINITION. The seven commands of the opcode map (30_encoding.md R94) and their operands (R93). -/

namespace Sys2Proof

/-- The DitherMode enum (R29, R93, R125). -/
inductive DitherMode where
  /-- 0, DISABLED: plain threshold. -/
  | disabled
  /-- 1, ORDERED: 8 by 8 Bayer threshold. -/
  | ordered
  /-- 2, ERROR_DIFFUSION_2ROW: Floyd-Steinberg. -/
  | ed2
  /-- 3, ERROR_DIFFUSION_3ROW: Stucki. -/
  | ed3
deriving DecidableEq, Repr, Inhabited

/-- A 4-bit format tag FMT (R93): three formats, and the tags 3 to 15 that are legal but unsupported. -/
inductive Format where
  /-- 0 -/
  | l8
  /-- 1 -/
  | rgb332
  /-- 2 -/
  | rgb565
  /-- 3 to 15: the first byte is the luma (R116). A tag below 3 here is ill formed. -/
  | unsupported (tag : BitVec 4)
deriving DecidableEq, Repr, Inhabited

/-- The command words, one constructor per row of the opcode table (R94). -/
inductive Instr where
  /-- SET_MODE m, format M, OP 0x01 (R130). -/
  | setMode (m : DitherMode)
  /-- GET_MODE, format N, OP 0x02 (R131). -/
  | getMode
  /-- SET_ENABLED e, format E, OP 0x03 (R132). -/
  | setEnabled (e : Bool)
  /-- IS_ENABLED, format N, OP 0x04 (R133). -/
  | isEnabled
  /-- FREE_BUFFERS, format N, OP 0x05 (R134). -/
  | freeBuffers
  /-- SAMPLE_LUMA fmt, b0, b1, format S, OP 0x06 (R118). -/
  | sampleLuma (fmt : Format) (b0 b1 : Byte)
  /-- CONVERT_AREA fmt, bpp, format C, OP 0x07 (R140). -/
  | convertArea (fmt : Format) (bpp : BitVec 3)
deriving DecidableEq, Repr, Inhabited

/-- The command errors that ERR.CODE can hold (60_exceptions.md R240). -/
inductive CmdError where
  /-- 1: the opcode is 0x00 or at least 0x08. -/
  | illegalOpcode
  /-- 2: a reserved bit of the command's format is 1. -/
  | reservedBits
  /-- 3: CMD was written while BUSY = 1. -/
  | busy
  /-- 4: a bad BPP, or a source range past 2^32. -/
  | badArg
  /-- 5: the tile rectangle exceeds the raster. -/
  | bounds
deriving DecidableEq, Repr, Inhabited

end Sys2Proof
end

