-- ==== Sys2Proof/WellFormed.lean ====
section
/-! DEFINITION. Which instructions have an encoding: an `unsupported` format tag is one of 3 to 15
(30_encoding.md R93). Every other operand fits its field by its type. -/

namespace Sys2Proof

/-- A format whose tag is its own: tags 0, 1 and 2 belong to L8, RGB332 and RGB565 (R93). -/
def Format.wellFormed : Format → Bool
  | .l8 => true
  | .rgb332 => true
  | .rgb565 => true
  | .unsupported tag => decide (3 ≤ tag.toNat)

/-- An instruction that some command word encodes (R92, R93). -/
def Instr.wellFormed : Instr → Bool
  | .setMode _ => true
  | .getMode => true
  | .setEnabled _ => true
  | .isEnabled => true
  | .freeBuffers => true
  | .sampleLuma fmt _ _ => fmt.wellFormed
  | .convertArea fmt _ => fmt.wellFormed

end Sys2Proof
end

