-- ==== Sys2Proof/Decode.lean ====
section
/-! DEFINITION. Command words (30_encoding.md): the decoder with its two rejections by name (R94, R95), and
the encoder (R92, R98). -/

namespace Sys2Proof

/-- The two bits of a DitherMode (R93). -/
def DitherMode.toBits : DitherMode → BitVec 2
  | .disabled => 0
  | .ordered => 1
  | .ed2 => 2
  | .ed3 => 3

/-- All four values of the 2-bit MODE field are legal (R93). -/
def DitherMode.ofBits (b : BitVec 2) : DitherMode :=
  if b = 0 then .disabled else if b = 1 then .ordered else if b = 2 then .ed2 else .ed3

/-- The four bits of a format tag (R93). -/
def Format.toBits : Format → BitVec 4
  | .l8 => 0
  | .rgb332 => 1
  | .rgb565 => 2
  | .unsupported tag => tag

/-- The format a tag names; tags 3 to 15 are unsupported and legal (R93). -/
def Format.ofBits (b : BitVec 4) : Format :=
  if b = 0 then .l8 else if b = 1 then .rgb332 else if b = 2 then .rgb565 else .unsupported b

/-! ### Fields of a command word (R91, R92) -/

/-- OP, bits 7 to 0 (R91). -/
def opField (w : Word) : Byte := w.extractLsb' 0 8

/-- MODE of format M, bits 9 and 8. -/
def modeField (w : Word) : DitherMode := .ofBits (w.extractLsb' 8 2)

/-- EN of format E, bit 8. -/
def enField (w : Word) : Bool := w.getLsbD 8

/-- FMT of formats S and C, bits 11 to 8. -/
def fmtField (w : Word) : Format := .ofBits (w.extractLsb' 8 4)

/-- B0 of format S, bits 23 to 16. -/
def b0Field (w : Word) : Byte := w.extractLsb' 16 8

/-- B1 of format S, bits 31 to 24. -/
def b1Field (w : Word) : Byte := w.extractLsb' 24 8

/-- BPP of format C, bits 14 to 12. -/
def bppField (w : Word) : BitVec 3 := w.extractLsb' 12 3

/-! ### The opcode map (R94) -/

/-- The fixed bits of one row: a word matches when `word &&& mask = pattern`. -/
structure OpcodeRow where
  mask : Word
  pattern : Word
deriving DecidableEq, Repr

/-- The row of each command (R94). -/
def Instr.row : Instr → OpcodeRow
  | .setMode _ => ⟨0xFFFFFCFF, 0x00000001⟩
  | .getMode => ⟨0xFFFFFFFF, 0x00000002⟩
  | .setEnabled _ => ⟨0xFFFFFEFF, 0x00000003⟩
  | .isEnabled => ⟨0xFFFFFFFF, 0x00000004⟩
  | .freeBuffers => ⟨0xFFFFFFFF, 0x00000005⟩
  | .sampleLuma _ _ _ => ⟨0x0000F0FF, 0x00000006⟩
  | .convertArea _ _ => ⟨0xFFFF80FF, 0x00000007⟩

/-- The command if the word matches its row, else RESERVED_BITS (R94, R95). -/
def checkReserved (w : Word) (i : Instr) : Except CmdError Instr :=
  if w &&& i.row.mask = i.row.pattern then .ok i else .error .reservedBits

/-- What a command word means: OP alone picks the command and its format (R91), an illegal OP is rejected
first and a nonzero reserved bit next (R95, R242). -/
def decode (w : Word) : Except CmdError Instr :=
  match (opField w).toNat with
  | 1 => checkReserved w (.setMode (modeField w))
  | 2 => checkReserved w .getMode
  | 3 => checkReserved w (.setEnabled (enField w))
  | 4 => checkReserved w .isEnabled
  | 5 => checkReserved w .freeBuffers
  | 6 => checkReserved w (.sampleLuma (fmtField w) (b0Field w) (b1Field w))
  | 7 => checkReserved w (.convertArea (fmtField w) (bppField w))
  | _ => .error .illegalOpcode

/-! ### The encoder (R92, R98) -/

/-- Format N: no operand. -/
def formatN (op : Byte) : Word := 0#24 ++ op

/-- Format M: a mode operand. -/
def formatM (m : BitVec 2) (op : Byte) : Word := 0#22 ++ m ++ op

/-- Format E: an enable operand. -/
def formatE (e : Bool) (op : Byte) : Word := 0#23 ++ BitVec.ofBool e ++ op

/-- Format S: the sample operands. -/
def formatS (b1 b0 : Byte) (fmt : BitVec 4) (op : Byte) : Word := b1 ++ b0 ++ 0#4 ++ fmt ++ op

/-- Format C: the convert operands. -/
def formatC (bpp : BitVec 3) (fmt : BitVec 4) (op : Byte) : Word := 0#17 ++ bpp ++ fmt ++ op

/-- The command word of an instruction (R98). -/
def encode : Instr → Word
  | .setMode m => formatM m.toBits 0x01
  | .getMode => formatN 0x02
  | .setEnabled e => formatE e 0x03
  | .isEnabled => formatN 0x04
  | .freeBuffers => formatN 0x05
  | .sampleLuma fmt b0 b1 => formatS b1 b0 fmt.toBits 0x06
  | .convertArea fmt bpp => formatC bpp fmt.toBits 0x07

/-! ### Words as the opcode table numbers them -/

/-- The command word whose low `nbits` bits are `w` and whose other bits are 0. A command is one 32-bit word,
so its numbering in the table is that of the word (R90). -/
def tableWord (nbits w : Nat) : Word := BitVec.ofNat 32 (w % 2 ^ nbits)

/-- The instruction the decoder reads from an opcode-table word. -/
def decodeTableWord (nbits w : Nat) : Option Instr :=
  match decode (tableWord nbits w) with
  | .ok i => some i
  | .error _ => none

end Sys2Proof
end

