-- ==== Sys2Proof/Config.lean ====
section
/-! DEFINITION. What an implementation fixes (the parameters of 00_scope.md R7), what the environment may do next
(R4), and the values the spec leaves free. -/

namespace Sys2Proof

/-- The implementation parameters (R7). They are held in the state, so that a statement about every state speaks of
every legal choice of them. DEDUCED: assumption 4. -/
structure Params where
  screenW : Nat
  screenH : Nat
  /-- capacity of one accumulator row, in cells -/
  accRowCells : Nat
  panelPlanes : Nat
  /-- in milliseconds -/
  pollInterval : Nat
  /-- the 8 by 8 matrix, row after row -/
  bayer : List Nat
  idValue : Word
deriving DecidableEq, Repr, Inhabited

/-- BPR, bytes per raster row (R7). -/
def Params.bytesPerRow (p : Params) : Nat := (p.screenW + 7) / 8

/-- RASTER_BYTES (R7, R70). -/
def Params.rasterBytes (p : Params) : Nat := p.bytesPerRow * p.screenH

/-- The legal values of R7, with BAYER a permutation of 0 to 63. -/
structure Params.Legal (p : Params) : Prop where
  screenW_range : 1 ≤ p.screenW ∧ p.screenW ≤ 65535
  screenH_range : 1 ≤ p.screenH ∧ p.screenH ≤ 65535
  accRowCells_range : 4 ≤ p.accRowCells ∧ p.accRowCells ≤ 65535
  panelPlanes_range : p.panelPlanes = 1 ∨ p.panelPlanes = 2
  pollInterval_pos : 0 < p.pollInterval
  bayer_perm : p.bayer.Perm (List.range 64)
  rasterBytes_fits : p.rasterBytes ≤ 0xFF000

/-- The answer of the panel to a request (43_refresh_scheduler.md R207). -/
inductive PanelAnswer where
  | ok
  | fail
deriving DecidableEq, Repr, Inhabited

/-- One operation of a host program (30_encoding.md R97, R99): an aligned 32-bit transfer, or the loop that reads STATUS
until bit 0 of the value is 0. -/
inductive HostOp where
  /-- `rd` -/
  | read (off : Offset)
  /-- `wr`, and every command mnemonic -/
  | write (off : Offset) (v : Word)
  /-- `wait_idle` -/
  | waitIdle
deriving DecidableEq, Repr, Inhabited

/-- One atomic step of one agent of R4, or of the reset input (R3 g). -/
inductive Event where
  /-- host: a bus read of `size` bits (R60, R61) -/
  | busRead (off : Offset) (size : Nat)
  /-- host: a bus write of `size` bits (R60, R61) -/
  | busWrite (off : Offset) (size : Nat) (data : Word)
  /-- host: the next transfer of its program, in program order (R66, R97) -/
  | hostStep
  /-- host: it changes one byte of the source memory (R81, R85) -/
  | srcWrite (addr : Word) (b : Byte)
  /-- tile engine: a pixel step or the completion step (R150, R185) -/
  | tileStep
  /-- refresh scheduler: one byte of a DRAW pass (R208) -/
  | schedStep
  /-- poll timer: a poll tick (R201) -/
  | tick
  /-- poll timer: `ms` milliseconds pass (R47) -/
  | elapse (ms : Nat)
  /-- panel: its answer to the request outstanding (R207) -/
  | panelAnswer (a : PanelAnswer)
  /-- the reset input is asserted (R265) -/
  | resetAssert
  /-- the reset input is released (R265) -/
  | resetRelease
deriving DecidableEq, Repr, Inhabited

/-! ### Free values: nothing constrains them -/

/-- The agent step taken when none is scheduled: R4 gives the agents no order. DESIGN CHOICE: assumption 2. -/
opaque Config.freeEvent : Nat → Event

/-- What the host left at a source address before the machine started (R67). DESIGN CHOICE: assumption 5. -/
opaque Config.sourceByte : Nat → Byte

/-- What a read of a source byte gives that the host changed under the running tile: the old byte, the new one or
another (R81). DESIGN CHOICE: assumption 6. -/
opaque Config.changedByte : Nat → Byte

end Sys2Proof
end

