-- ==== Sys2Proof/Machine/Defaults.lean ====
section
/-! DEFINITION. The default of every parameter (00_scope.md R7). -/

namespace Sys2Proof.Machine

/-- The default BAYER, row after row (41_dither_engine.md R160). -/
def bayerDefault : List Nat :=
  [ 0, 32,  8, 40,  2, 34, 10, 42,
   48, 16, 56, 24, 50, 18, 58, 26,
   12, 44,  4, 36, 14, 46,  6, 38,
   60, 28, 52, 20, 62, 30, 54, 22,
    3, 35, 11, 43,  1, 33,  9, 41,
   51, 19, 59, 27, 49, 17, 57, 25,
   15, 47,  7, 39, 13, 45,  5, 37,
   63, 31, 55, 23, 61, 29, 53, 21]

/-- The default parameters (R7): a 200 by 200 screen, ACC_ROW_CELLS = SCREEN_W + 4, one plane, 500 ms, "EPP7". -/
def defaultParams : Params where
  screenW := 200
  screenH := 200
  accRowCells := 204
  panelPlanes := 1
  pollInterval := 500
  bayer := bayerDefault
  idValue := 0x45505037

end Sys2Proof.Machine
end

