-- ==== Sys2Proof/Machine/State.lean ====
section
/-! DEFINITION. The state of the display core (10_state.md), as plain data, and its value after reset (R52, R265). -/

namespace Sys2Proof.Machine

/-- A sparse byte memory: addresses strictly rising, no entry equal to what an unlisted address reads as. -/
abbrev Memory := List Host.Cell

/-- Why the machine stops. Each is raised by a pixel step only, in states that no run from reset reaches, and is
safe: the model stops where the spec gives no access (assumption 16). -/
inductive Fault where
  /-- Raised by the pixel step: the pixel lies outside the raster, which R141 and R181 exclude. Safe. -/
  | rasterOutOfRange
  /-- Raised by the pixel step: the pixel's bytes lie past the 32-bit source space, which R141 excludes. Safe. -/
  | sourceOutOfRange
  /-- Raised by the pixel step: an accumulator cell past its row, which R142 excludes. Safe. -/
  | accOutOfRange
deriving DecidableEq, Repr

/-- Why a step has no meaning. -/
inductive Refusal where
  /-- Raised by `exec` for an instruction that has no meaning yet: none. Safe. -/
  | notModelled (mnemonic : String)
deriving DecidableEq, Repr

/-- STATUS.SCHED_STATE (R30, R200). -/
inductive SchedState where
  | idle
  | refreshInProgress
deriving DecidableEq, Repr

/-- STATUS.SCHED_PHASE (R30, R200). -/
inductive SchedPhase where
  | none
  | powerOn
  | selectLut
  | draw
  | refresh
  | powerOff
deriving DecidableEq, Repr

/-- The refresh mode of a cycle (R46, R205). -/
inductive Lut where
  | partialLut
  | fullLut
deriving DecidableEq, Repr

/-- The five request codes of the panel port (R207). -/
inductive PanelOp where
  | powerOn
  | selectLut
  | draw
  | refresh
  | powerOff
deriving DecidableEq, Repr

/-- A panel request with its arguments (R207). -/
inductive PanelRequest where
  | powerOn
  | selectLut (lut : Lut)
  | draw (plane : BitVec 1) (bytes : List Byte)
  | refresh
  | powerOff
deriving DecidableEq, Repr

/-- The response of a bus transfer (20_memory.md R62). -/
inductive BusCode where
  | okay
  | slverr
deriving DecidableEq, Repr

/-- The response of a bus transfer, with the value a read returns (R62). -/
structure BusReply where
  code : BusCode
  /-- the value read; none for a write -/
  data : Option Word
deriving DecidableEq, Repr

/-- The accumulator file: three rows of cells (R45). -/
structure AccFile where
  row0 : List Cell
  row1 : List Cell
  row2 : List Cell
deriving DecidableEq, Repr

/-- Everything the spec gives the machine. -/
structure State where
  /-- the parameters, hardwired (R7, R21 to R23) -/
  cfg : Params
  /-- RESULT (R25) -/
  result : Word
  /-- TILE_ORIGIN (R26) -/
  tileOrigin : Word
  /-- TILE_SIZE (R27) -/
  tileSize : Word
  /-- SRC_ADDR (R28) -/
  srcAddr : Word
  /-- MODE.MODE (R29) -/
  mode : DitherMode
  /-- MODE.LAST_MODE (R29, R48) -/
  lastMode : DitherMode
  /-- STATUS.BUSY (R30) -/
  busy : Bool
  /-- STATUS.DIRTY (R30, R49) -/
  dirty : Bool
  /-- ERR.CODE (R31) -/
  errCode : BitVec 4
  /-- ERR.OVERFLOW (R31) -/
  errOverflow : Bool
  /-- INT_STATUS (R32) -/
  intStatus : BitVec 5
  /-- INT_ENABLE (R33) -/
  intEnable : BitVec 5
  /-- THRESHOLD (R34) -/
  threshold : BitVec 16
  /-- PARTIAL_COUNT (R35) -/
  partialCount : BitVec 16
  /-- ACC_ALLOC.ROWS (R36) -/
  accRows : BitVec 2
  /-- ACC_ALLOC.WIDTH (R36) -/
  accWidth : BitVec 16
  /-- FALLBACK_COUNT (R37) -/
  fallbackCount : Word
  /-- PANEL_FAIL_COUNT (R38) -/
  panelFailCount : Word
  /-- LAST_PANEL_FAIL.OP (R39) -/
  lastFailOp : BitVec 3
  /-- LAST_PANEL_FAIL.PLANE (R39) -/
  lastFailPlane : BitVec 1
  /-- LX, the latched origin (R44) -/
  lx : BitVec 16
  /-- LY (R44) -/
  ly : BitVec 16
  /-- LW, the latched size (R44) -/
  lw : BitVec 16
  /-- LH (R44) -/
  lh : BitVec 16
  /-- LSRC, the latched source address (R44) -/
  lsrc : Word
  /-- LFMT, the latched format (R44) -/
  lfmt : Format
  /-- LBPP, the latched bytes per pixel (R44) -/
  lbpp : BitVec 3
  /-- ALGO, the algorithm this tile runs, after fallback (R44) -/
  algo : DitherMode
  /-- r, the cursor's row (R42, R44) -/
  curR : Nat
  /-- c, the cursor's column (R42, R44) -/
  curC : Nat
  /-- Acc (R45) -/
  acc : AccFile
  /-- STATUS.SCHED_STATE (R30) -/
  schedState : SchedState
  /-- STATUS.SCHED_PHASE (R30) -/
  schedPhase : SchedPhase
  /-- STATUS.PLANE (R30) -/
  plane : BitVec 1
  /-- LUT of the current cycle (R46) -/
  lut : Lut
  /-- i, the draw byte index (R46) -/
  drawIndex : Nat
  /-- the bytes the DRAW pass has read so far, first byte first (R46) -/
  drawBuf : List Byte
  /-- the request outstanding on the panel port (R207) -/
  outstanding : Option PanelOp
  /-- milliseconds since the last poll tick (R47) -/
  pollElapsed : Nat
  /-- the raster; an unlisted byte reads 0 (R50, R70) -/
  raster : Memory
  /-- the source memory: the bytes the host has left; an unlisted byte is free (R67) -/
  src : Memory
  /-- model: the source addresses the host changed during the running command (R67, R81) -/
  srcChanged : List Nat
  /-- model: the response of the last bus transfer (R62) -/
  busReply : Option BusReply
  /-- model: the panel requests issued so far, first one first (R207) -/
  panelLog : List PanelRequest
  /-- model: the reset input is asserted (R3 g, R265) -/
  resetHeld : Bool
  /-- model: the agents' steps to come, next one first (R4) -/
  schedule : List Event
  /-- model: the operations of the host's program still to issue, next one first (R4, R66, R97) -/
  program : List HostOp
  /-- model: the counter the free values are applied to -/
  freeCount : Nat
deriving DecidableEq, Repr

/-- The machine right after reset with given parameters (R52, R265): the values the spec states; the hidden state it
leaves unspecified is 0 or empty (DESIGN CHOICE, assumption 7), and so are the model's own fields (DESIGN CHOICE,
assumption 8). -/
def resetWith (p : Params) : State where
  cfg := p
  result := 0
  tileOrigin := 0
  tileSize := 0
  srcAddr := 0
  mode := .disabled
  lastMode := .ordered
  busy := false
  dirty := false
  errCode := 0
  errOverflow := false
  intStatus := 0
  intEnable := 0
  threshold := 0
  partialCount := 0
  accRows := 0
  accWidth := 0
  fallbackCount := 0
  panelFailCount := 0
  lastFailOp := 0
  lastFailPlane := 0
  lx := 0
  ly := 0
  lw := 0
  lh := 0
  lsrc := 0
  lfmt := .l8
  lbpp := 0
  algo := .disabled
  curR := 0
  curC := 0
  acc := ⟨List.replicate p.accRowCells 0, List.replicate p.accRowCells 0, List.replicate p.accRowCells 0⟩
  schedState := .idle
  schedPhase := .none
  plane := 0
  lut := .fullLut
  drawIndex := 0
  drawBuf := []
  outstanding := none
  pollElapsed := 0
  raster := []
  src := []
  srcChanged := []
  busReply := none
  panelLog := []
  resetHeld := false
  schedule := []
  program := []
  freeCount := 0

/-- The machine right after reset, with the default parameters (R7, R52, R265). -/
def State.reset : State := resetWith defaultParams

end Sys2Proof.Machine
end

