-- ==== Sys2Proof/Machine/Flags.lean ====
section
/-! DEFINITION. The status words as software reads them (10_state.md R29 to R39), the interrupt cause bits (R32) and
the irq line (60_exceptions.md R248). -/

namespace Sys2Proof.Machine

/-! ### Interrupt causes (R32, R249) -/

/-- INT_STATUS.TILE_DONE, bit 0. -/
def causeTileDone : BitVec 5 := 0b00001

/-- INT_STATUS.CMD_ERR, bit 1. -/
def causeCmdErr : BitVec 5 := 0b00010

/-- INT_STATUS.REFRESH_DONE, bit 2. -/
def causeRefreshDone : BitVec 5 := 0b00100

/-- INT_STATUS.REFRESH_FAIL, bit 3. -/
def causeRefreshFail : BitVec 5 := 0b01000

/-- INT_STATUS.FALLBACK, bit 4. -/
def causeFallback : BitVec 5 := 0b10000

/-- The level interrupt output: some enabled cause bit is set (R248). -/
def irq (s : State) : Bool := decide (s.intStatus &&& s.intEnable ≠ 0)

/-! ### Codes -/

/-- ERR.CODE of a command error (R240). -/
def errorCode : CmdError → BitVec 4
  | .illegalOpcode => 1
  | .reservedBits => 2
  | .busy => 3
  | .badArg => 4
  | .bounds => 5

/-- The value of STATUS.SCHED_STATE (R30). -/
def schedStateBit : SchedState → BitVec 1
  | .idle => 0
  | .refreshInProgress => 1

/-- The value of STATUS.SCHED_PHASE (R30). -/
def phaseCode : SchedPhase → BitVec 3
  | .none => 0
  | .powerOn => 1
  | .selectLut => 2
  | .draw => 3
  | .refresh => 4
  | .powerOff => 5

/-- The code of a panel request (R39, R207). -/
def panelOpCode : PanelOp → BitVec 3
  | .powerOn => 1
  | .selectLut => 2
  | .draw => 3
  | .refresh => 4
  | .powerOff => 5

/-! ### The words software reads -/

/-- MODE.ENABLED, not separate state (R29). -/
def enabled (s : State) : Bool := decide (s.mode ≠ .disabled)

/-- MODE (R29): MODE, LAST_MODE and ENABLED. -/
def modeWord (s : State) : Word :=
  0#27 ++ BitVec.ofBool (enabled s) ++ s.lastMode.toBits ++ s.mode.toBits

/-- STATUS.ERR_PENDING, not separate state (R30). -/
def errPending (s : State) : Bool := decide (s.errCode ≠ 0)

/-- STATUS.PLANE as it reads: the plane being drawn during DRAW, otherwise 0 (R30). -/
def planeBit (s : State) : BitVec 1 := if s.schedPhase = .draw then s.plane else 0

/-- STATUS (R30). -/
def statusWord (s : State) : Word :=
  0#24 ++ planeBit s ++ BitVec.ofBool (errPending s) ++ BitVec.ofBool s.dirty ++ phaseCode s.schedPhase ++
    schedStateBit s.schedState ++ BitVec.ofBool s.busy

/-- ERR (R31). -/
def errWord (s : State) : Word := 0#27 ++ BitVec.ofBool s.errOverflow ++ s.errCode

/-- ACC_ALLOC (R36). -/
def accAllocWord (s : State) : Word := 0#14 ++ s.accRows ++ s.accWidth

/-- LAST_PANEL_FAIL (R39). -/
def lastPanelFailWord (s : State) : Word := 0#28 ++ s.lastFailPlane ++ s.lastFailOp

/-- GEOMETRY (R22). -/
def geometryWord (s : State) : Word := BitVec.ofNat 16 s.cfg.screenH ++ BitVec.ofNat 16 s.cfg.screenW

/-- CAPS (R23). -/
def capsWord (s : State) : Word := 0#14 ++ BitVec.ofNat 2 s.cfg.panelPlanes ++ BitVec.ofNat 16 s.cfg.accRowCells

end Sys2Proof.Machine
end

