-- ==== Sys2Proof/Machine/Operands.lean ====
section
/-! DEFINITION. Where a command takes its operands from besides its own word: the fields of TILE_ORIGIN, TILE_SIZE
and SRC_ADDR (30_encoding.md R93, 10_state.md R26 to R28), and the argument checks on them (41_dither_engine.md R141). -/

namespace Sys2Proof.Machine

/-- TILE_ORIGIN.X (R26). -/
def tileX (s : State) : BitVec 16 := s.tileOrigin.extractLsb' 0 16

/-- TILE_ORIGIN.Y (R26). -/
def tileY (s : State) : BitVec 16 := s.tileOrigin.extractLsb' 16 16

/-- TILE_SIZE.W (R27). -/
def tileW (s : State) : BitVec 16 := s.tileSize.extractLsb' 0 16

/-- TILE_SIZE.H (R27). -/
def tileH (s : State) : BitVec 16 := s.tileSize.extractLsb' 16 16

/-- The argument checks of CONVERT_AREA, in the order of R141, on exact sums and products: the first error, if any. -/
def convertArgError (fmt : Format) (bpp : BitVec 3) (s : State) : Option CmdError :=
  if bpp.toNat = 0 ∨ 4 < bpp.toNat then some .badArg
  else if fmt = .rgb565 ∧ bpp.toNat < 2 then some .badArg
  else if 2 ^ 32 < s.srcAddr.toNat + (tileW s).toNat * (tileH s).toNat * bpp.toNat then some .badArg
  else if s.cfg.screenW < (tileX s).toNat + (tileW s).toNat ∨
      s.cfg.screenH < (tileY s).toNat + (tileH s).toNat then some .bounds
  else none

end Sys2Proof.Machine
end

