-- ==== Sys2Proof/Machine/Ops.lean ====
section
/-! DEFINITION. The named operations over memory, the raster, the source memory and the accumulators, and the one
exception of the machine: a rejected command (60_exceptions.md R241). -/

namespace Sys2Proof.Machine

/-! ### Byte memories -/

/-- The entry at an address. -/
def Memory.lookup : Memory → Nat → Option Byte
  | [], _ => none
  | (a, b) :: m, k => if a = k then some b else Memory.lookup m k

/-- Lists a byte at an address, in address order. -/
def Memory.insert : Memory → Nat → Byte → Memory
  | [], k, v => [(k, v)]
  | (a, b) :: m, k, v =>
    if k < a then (k, v) :: (a, b) :: m
    else if k = a then (k, v) :: m
    else (a, b) :: Memory.insert m k v

/-- Takes the entry at an address out. -/
def Memory.erase : Memory → Nat → Memory
  | [], _ => []
  | (a, b) :: m, k => if a = k then m else (a, b) :: Memory.erase m k

/-- A read, where an unlisted address reads as `d`. -/
def Memory.read (d : Option Byte) (m : Memory) (k : Nat) : Option Byte :=
  match Memory.lookup m k with
  | some b => some b
  | none => d

/-- A write that keeps the canonical form: a byte that an unlisted address reads as is not listed. -/
def Memory.write (d : Option Byte) (m : Memory) (k : Nat) (v : Byte) : Memory :=
  if some v = d then Memory.erase m k else Memory.insert m k v

/-- The canonical form: addresses strictly rising and below `bound`, no entry equal to what an unlisted address reads
as. -/
abbrev Memory.wf (d : Option Byte) (bound : Nat) (m : Memory) : Prop :=
  List.Pairwise (fun x y : Host.Cell => x.1 < y.1) m ∧ ∀ x ∈ m, x.1 < bound ∧ some x.2 ≠ d

/-- What an unlisted raster byte reads as: its reset value, light (R50, R188). -/
def rasterUnlisted : Option Byte := some 0

/-- What an unlisted source byte reads as: no value is known (R67, assumption 5). -/
def sourceUnlisted : Option Byte := none

/-! ### The raster (20_memory.md R70, 42_raster_compositor.md R180, R181) -/

/-- RasterRead(i) (R70). -/
def rasterRead (s : State) (i : Nat) : Byte := (Memory.read rasterUnlisted s.raster i).getD 0

/-- RasterWrite(i, v) (R70). -/
def rasterWrite (i : Nat) (v : Byte) (s : State) : State :=
  { s with raster := Memory.write rasterUnlisted s.raster i v }

/-- ByteIndex(x, y) (R71, R180). -/
def byteIndex (p : Params) (x y : Nat) : Nat := y * p.bytesPerRow + x / 8

/-- BitIndex(x): bit 7 is the leftmost pixel (R71, R180). -/
def bitIndex (x : Nat) : Nat := 7 - x % 8

/-- A byte with one bit set or cleared (R181). -/
def putBit (v : Byte) (b : Nat) (dark : Bool) : Byte :=
  if dark then v ||| (1#8 <<< b) else v &&& ~~~(1#8 <<< b)

/-- PixelWrite(x, y, dark): a read-modify-write of one raster byte (R181). -/
def pixelWrite (x y : Nat) (dark : Bool) (s : State) : State :=
  let i := byteIndex s.cfg x y
  rasterWrite i (putBit (rasterRead s i) (bitIndex x) dark) s

/-- The raster bit of pixel (x, y): true is dark (R12, R71). -/
def rasterPixel (s : State) (x y : Nat) : Bool := (rasterRead s (byteIndex s.cfg x y)).getLsbD (bitIndex x)

/-! ### The source memory (R67, R81, R85) -/

/-- The byte the host has left at a source address: a free value where the host has set none (R67). -/
def sourceByte (s : State) (a : Nat) : Byte :=
  (Memory.read sourceUnlisted s.src a).getD (Config.sourceByte a)

/-- SrcRead(a): the byte the host left, or any byte if the host changed it during the command (R67, R81); a fresh
free value each time. -/
def srcRead (a : Nat) (s : State) : Byte × State :=
  if a ∈ s.srcChanged then (Config.changedByte s.freeCount, { s with freeCount := s.freeCount + 1 })
  else (sourceByte s a, s)

/-- The host changes a source byte; under a running tile the address is marked as changed (R81). Any write under a tile
counts as a change, that of the value the byte already holds too. DESIGN CHOICE: assumption 6. -/
def srcWrite (addr : Word) (b : Byte) (s : State) : State :=
  { s with
    src := Memory.write sourceUnlisted s.src addr.toNat b
    srcChanged :=
      if s.busy && !decide (addr.toNat ∈ s.srcChanged) then addr.toNat :: s.srcChanged else s.srcChanged }

/-! ### The accumulator file (R45, R168) -/

/-- wrap16 of R168, as the cell that holds it. -/
def wrap16 (v : Int) : Cell := BitVec.ofInt 16 v

/-- Acc[j]; the file has the rows 0, 1 and 2. -/
def AccFile.row (f : AccFile) : Nat → List Cell
  | 0 => f.row0
  | 1 => f.row1
  | _ => f.row2

/-- Replaces Acc[j]. -/
def AccFile.setRow (f : AccFile) (j : Nat) (cells : List Cell) : AccFile :=
  match j with
  | 0 => { f with row0 := cells }
  | 1 => { f with row1 := cells }
  | _ => { f with row2 := cells }

/-- Acc[j][i] as a signed number (R9). -/
def AccFile.cell (f : AccFile) (j i : Nat) : Int := ((f.row j).getD i 0).toInt

/-- Acc[j][i] takes wrap16(Acc[j][i] + v) (R168). -/
def AccFile.add (f : AccFile) (j i : Nat) (v : Int) : AccFile :=
  f.setRow j ((f.row j).set i (wrap16 (f.cell j i + v)))

/-- The first `n` cells of a row set to 0. -/
def zeroCells (n : Nat) (cells : List Cell) : List Cell :=
  List.replicate (min n cells.length) 0 ++ cells.drop n

/-- Cells 0 .. n of Acc[j] set to 0 (R144, R167). -/
def AccFile.zeroRow (f : AccFile) (j n : Nat) : AccFile := f.setRow j (zeroCells n (f.row j))

/-- Cells 0 .. n of the rows 0 .. rows set to 0 (R140, R144). -/
def AccFile.zeroRows (f : AccFile) : Nat → Nat → AccFile
  | 0, _ => f
  | rows + 1, n => (f.zeroRows rows n).zeroRow rows n

/-- Every row holds cells 0 .. n. -/
def AccFile.holds (f : AccFile) (n : Nat) : Bool :=
  decide (n ≤ f.row0.length ∧ n ≤ f.row1.length ∧ n ≤ f.row2.length)

/-- `a >> n` on a signed integer: the floor of a / 2^n (00_scope.md R10). -/
def floorShift (a : Int) (n : Nat) : Int := a / 2 ^ n

/-! ### Taking the exception: a rejected command -/

/-- `raise CmdError(code)`: the first code is kept, OVERFLOW marks a further one, CMD_ERR is set, nothing else changes
(R241, R245). -/
def raiseCmdError (e : CmdError) (s : State) : State :=
  { s with
    errCode := if s.errCode = 0 then errorCode e else s.errCode
    errOverflow := if s.errCode = 0 then s.errOverflow else true
    intStatus := s.intStatus ||| causeCmdErr }

/-- A write of any value to ERR clears the error: the one way back (R31, R244). -/
def clearCmdError (s : State) : State := { s with errCode := 0, errOverflow := false }

/-- A command's effect, or BUSY while a tile runs (R242 check 1). -/
def unlessBusy (effect : State → State) (s : State) : State :=
  if s.busy then raiseCmdError .busy s else effect s

/-- RESULT takes a value (R25). -/
def setResult (v : Word) (s : State) : State := { s with result := v }

/-- The host's program still to issue (R66). -/
def setProgram (p : List HostOp) (s : State) : State := { s with program := p }

/-! ### Bus responses (R62) -/

/-- The response of this step's transfer. -/
def setReply (r : BusReply) (s : State) : State := { s with busReply := some r }

/-- A read answered OKAY. -/
abbrev replyRead (v : Word) (s : State) : State := setReply ⟨.okay, some v⟩ s

/-- A read answered SLVERR returns 0. -/
abbrev replyReadError (s : State) : State := setReply ⟨.slverr, some 0⟩ s

/-- A write answered OKAY. -/
abbrev replyWrite (s : State) : State := setReply ⟨.okay, none⟩ s

/-- A write answered SLVERR. -/
abbrev replyWriteError (s : State) : State := setReply ⟨.slverr, none⟩ s

end Sys2Proof.Machine
end

