-- ==== Sys2Proof/Machine/ColorSampler.lean ====
section
/-! DEFINITION. The color_sampler (40_color_sampler.md): the luma of one native pixel, and SAMPLE_LUMA. -/

namespace Sys2Proof.Machine

/-- Expand_n(c): an n-bit channel expanded to 0 .. 255, rounded to nearest (R112). -/
def expandChannel (n c : Nat) : Nat := (c * 255 + (2 ^ n - 1) / 2) / (2 ^ n - 1)

/-- Weigh(R, G, B) (R113). -/
def weigh (r g b : Nat) : Nat := (77 * r + 150 * g + 29 * b) >>> 8

/-- The luma of an RGB332 pixel (R114). -/
def lumaRgb332 (b0 : Byte) : Nat :=
  weigh (expandChannel 3 (b0.extractLsb' 5 3).toNat) (expandChannel 3 (b0.extractLsb' 2 3).toNat)
    (expandChannel 2 (b0.extractLsb' 0 2).toNat)

/-- The luma of an RGB565 pixel, byte 0 low (R115). -/
def lumaRgb565 (b0 b1 : Byte) : Nat :=
  let v : BitVec 16 := b1 ++ b0
  weigh (expandChannel 5 (v.extractLsb' 11 5).toNat) (expandChannel 6 (v.extractLsb' 5 6).toNat)
    (expandChannel 5 (v.extractLsb' 0 5).toNat)

/-- Luma(fmt, b0, b1) (R110 to R117): an unsupported format takes its first byte (R116). -/
def luma (fmt : Format) (b0 b1 : Byte) : Byte :=
  match fmt with
  | .l8 => b0
  | .rgb332 => BitVec.ofNat 8 (lumaRgb332 b0)
  | .rgb565 => BitVec.ofNat 8 (lumaRgb565 b0 b1)
  | .unsupported _ => b0

/-- SAMPLE_LUMA: RESULT takes the luma (R118). -/
def execSampleLuma (fmt : Format) (b0 b1 : Byte) (s : State) : Host.Outcome State Fault Refusal :=
  .next (unlessBusy (setResult ((luma fmt b0 b1).zeroExtend 32)) s)

end Sys2Proof.Machine
end

