-- ==== Sys2Proof/Machine/DitherEngine.lean ====
section
/-! DEFINITION. The dither_engine's commands (41_dither_engine.md): mode control (R130 to R134), accumulator
allocation (R142, R143), and the step that accepts a CONVERT_AREA (R140). -/

namespace Sys2Proof.Machine

/-! ### Per-mode constants (R125) -/

/-- ROWS(mode). -/
def modeRows : DitherMode → Nat
  | .disabled => 0
  | .ordered => 0
  | .ed2 => 2
  | .ed3 => 3

/-- PAD(mode). -/
def modePad : DitherMode → Nat
  | .disabled => 0
  | .ordered => 0
  | .ed2 => 2
  | .ed3 => 4

/-- ALGO in {2, 3}: the error-diffusion modes. -/
def diffuses : DitherMode → Bool
  | .disabled => false
  | .ordered => false
  | .ed2 => true
  | .ed3 => true

/-! ### Mode control -/

/-- ACC_ALLOC takes (0, 0): all error buffers are discarded (R130, R134). -/
def discardBuffers (s : State) : State := { s with accRows := 0, accWidth := 0 }

/-- The pseudocode of R130. -/
def setModeEffect (m : DitherMode) (s : State) : State :=
  if m = s.mode then s
  else { discardBuffers s with mode := m, lastMode := if m = .disabled then s.lastMode else m }

/-- The mode that SET_ENABLED selects (R132). -/
def enableTarget (e : Bool) (s : State) : DitherMode :=
  if e then (if s.mode = .disabled then s.lastMode else s.mode) else .disabled

/-- SET_MODE m (R130). -/
def execSetMode (m : DitherMode) (s : State) : Host.Outcome State Fault Refusal :=
  .next (unlessBusy (setModeEffect m) s)

/-- GET_MODE: RESULT takes MODE (R131). -/
def execGetMode (s : State) : Host.Outcome State Fault Refusal :=
  .next (unlessBusy (setResult (s.mode.toBits.zeroExtend 32)) s)

/-- SET_ENABLED e: the effect of R130 on the target mode (R132). -/
def execSetEnabled (e : Bool) (s : State) : Host.Outcome State Fault Refusal :=
  .next (unlessBusy (setModeEffect (enableTarget e s)) s)

/-- IS_ENABLED: RESULT takes 1 or 0 (R133). -/
def execIsEnabled (s : State) : Host.Outcome State Fault Refusal :=
  .next (unlessBusy (setResult (if s.mode = .disabled then 0 else 1)) s)

/-- FREE_BUFFERS (R134). -/
def execFreeBuffers (s : State) : Host.Outcome State Fault Refusal :=
  .next (unlessBusy discardBuffers s)

/-! ### CONVERT_AREA: acceptance -/

/-- ACC_ALLOC already has the rows and the width a tile of width `w` needs, so it is reused (R142). -/
def canReuse (m : DitherMode) (w : Nat) (s : State) : Bool :=
  decide (s.accRows.toNat = modeRows m ∧ w + modePad m ≤ s.accWidth.toNat)

/-- Allocate(m, LW) for an error-diffusion mode (R142): the algorithm the tile runs, DISABLED if the row does not fit
(R143), and the state after. -/
def allocate (m : DitherMode) (w : Nat) (s : State) : DitherMode × State :=
  if canReuse m w s then (m, s)
  else if w + modePad m ≤ s.cfg.accRowCells then
    (m, { s with accRows := BitVec.ofNat 2 (modeRows m), accWidth := BitVec.ofNat 16 (w + modePad m) })
  else
    (.disabled,
      { discardBuffers s with
        fallbackCount := s.fallbackCount + 1
        intStatus := s.intStatus ||| causeFallback })

/-- The algorithm for a tile of width `w` in the current mode, and the state after its allocation (R140). -/
def chooseAlgo (w : Nat) (s : State) : DitherMode × State :=
  if diffuses s.mode then allocate s.mode w s else (s.mode, s)

/-- The tile-start zeroing, for an error-diffusion algorithm (R140, R144). -/
def clearForTile (algo : DitherMode) (w : Nat) (f : AccFile) : AccFile :=
  if diffuses algo then f.zeroRows (modeRows algo) (w + modePad algo) else f

/-- The operands, the algorithm and the cursor that the tile engine latches; BUSY is set (R140, R146). The host has
changed no source byte yet (R67). -/
def latchTile (fmt : Format) (bpp : BitVec 3) (algo : DitherMode) (s : State) : State :=
  { s with
    lx := tileX s
    ly := tileY s
    lw := tileW s
    lh := tileH s
    lsrc := s.srcAddr
    lfmt := fmt
    lbpp := bpp
    algo := algo
    acc := clearForTile algo (tileW s).toNat s.acc
    curR := 0
    curC := 0
    srcChanged := []
    busy := true }

/-- The accepting step of a CONVERT_AREA whose checks pass (R140). -/
def acceptTile (fmt : Format) (bpp : BitVec 3) (s : State) : State :=
  let chosen := chooseAlgo (tileW s).toNat s
  latchTile fmt bpp chosen.1 chosen.2

/-- The checks of R141 and then acceptance. -/
def convertEffect (fmt : Format) (bpp : BitVec 3) (s : State) : State :=
  match convertArgError fmt bpp s with
  | some e => raiseCmdError e s
  | none => acceptTile fmt bpp s

/-- CONVERT_AREA fmt, bpp (R140, R141). -/
def execConvertArea (fmt : Format) (bpp : BitVec 3) (s : State) : Host.Outcome State Fault Refusal :=
  .next (unlessBusy (convertEffect fmt bpp) s)

end Sys2Proof.Machine
end

