-- ==== Sys2Proof/Machine/Dispatch.lean ====
section
/-! DEFINITION. The meaning of every command, one arm per row of the opcode table. -/

namespace Sys2Proof.Machine

def exec (i : Instr) (s : State) : Host.Outcome State Fault Refusal :=
  match i with
  | .setMode m => Sys2Proof.Machine.execSetMode m s
  | .getMode => Sys2Proof.Machine.execGetMode s
  | .setEnabled e => Sys2Proof.Machine.execSetEnabled e s
  | .isEnabled => Sys2Proof.Machine.execIsEnabled s
  | .freeBuffers => Sys2Proof.Machine.execFreeBuffers s
  | .sampleLuma fmt b0 b1 => Sys2Proof.Machine.execSampleLuma fmt b0 b1 s
  | .convertArea fmt bpp => Sys2Proof.Machine.execConvertArea fmt bpp s

end Sys2Proof.Machine
end

