-- ==== Sys2Proof/Machine/Registers.lean ====
section
/-! DEFINITION. The register map (10_state.md R20) and the RASTER window (20_memory.md R72): where an offset points,
what a read there returns, and what a write to a writable register does. -/

namespace Sys2Proof.Machine

/-- The registers of R20. -/
inductive Reg where
  | id
  | geometry
  | caps
  | cmd
  | result
  | tileOrigin
  | tileSize
  | srcAddr
  | mode
  | status
  | err
  | intStatus
  | intEnable
  | threshold
  | partialCount
  | accAlloc
  | fallbackCount
  | panelFailCount
  | lastPanelFail
deriving DecidableEq, Repr

/-- The byte offset of a register (R20). -/
def regOffset : Reg → Nat
  | .id => 0x000
  | .geometry => 0x004
  | .caps => 0x008
  | .cmd => 0x010
  | .result => 0x014
  | .tileOrigin => 0x018
  | .tileSize => 0x01C
  | .srcAddr => 0x020
  | .mode => 0x024
  | .status => 0x028
  | .err => 0x02C
  | .intStatus => 0x030
  | .intEnable => 0x034
  | .threshold => 0x038
  | .partialCount => 0x03C
  | .accAlloc => 0x040
  | .fallbackCount => 0x044
  | .panelFailCount => 0x048
  | .lastPanelFail => 0x04C

/-- The registers, in the order of their offsets. -/
def allRegs : List Reg :=
  [.id, .geometry, .caps, .cmd, .result, .tileOrigin, .tileSize, .srcAddr, .mode, .status, .err, .intStatus,
   .intEnable, .threshold, .partialCount, .accAlloc, .fallbackCount, .panelFailCount, .lastPanelFail]

/-- The offset of a register on the bus. -/
def regBusOffset (r : Reg) : Offset := BitVec.ofNat 20 (regOffset r)

/-- What an aligned offset names: a register, word k of the RASTER window, or nothing (R20, R64, R72). -/
inductive Place where
  | reg (r : Reg)
  | window (k : Nat)
  | reserved
deriving DecidableEq, Repr

/-- The first offset of the RASTER window (R72). -/
def windowBase : Nat := 0x01000

/-- The words of the RASTER window, ceil(RASTER_BYTES / 4) (R72). -/
def windowWords (p : Params) : Nat := (p.rasterBytes + 3) / 4

/-- The address decode of R20. -/
def locate (p : Params) (off : Nat) : Place :=
  if windowBase ≤ off then
    if off < windowBase + 4 * windowWords p then .window ((off - windowBase) / 4) else .reserved
  else
    match allRegs.find? (fun r => regOffset r == off) with
    | some r => .reg r
    | none => .reserved

/-- B(i) of the RASTER window: bytes past the raster read 0 (R72). -/
def windowByte (s : State) (i : Nat) : Byte := if i < s.cfg.rasterBytes then rasterRead s i else 0

/-- Word k of the RASTER window, raster byte 4k in bits 7 to 0 (R72, R73). -/
def windowWord (s : State) (k : Nat) : Word :=
  windowByte s (4 * k + 3) ++ windowByte s (4 * k + 2) ++ windowByte s (4 * k + 1) ++ windowByte s (4 * k)

/-- What a read of a register returns; CMD reads 0 (R21 to R40). -/
def regRead (s : State) : Reg → Word
  | .id => s.cfg.idValue
  | .geometry => geometryWord s
  | .caps => capsWord s
  | .cmd => 0
  | .result => s.result
  | .tileOrigin => s.tileOrigin
  | .tileSize => s.tileSize
  | .srcAddr => s.srcAddr
  | .mode => modeWord s
  | .status => statusWord s
  | .err => errWord s
  | .intStatus => s.intStatus.zeroExtend 32
  | .intEnable => s.intEnable.zeroExtend 32
  | .threshold => s.threshold.zeroExtend 32
  | .partialCount => s.partialCount.zeroExtend 32
  | .accAlloc => accAllocWord s
  | .fallbackCount => s.fallbackCount
  | .panelFailCount => s.panelFailCount
  | .lastPanelFail => lastPanelFailWord s

/-- What a write to a register other than CMD does, or none for a read-only register (R26 to R28, R31 to R34, R63).
Bits a register does not name are ignored (R40). CMD is the command port: see `issueCommand`. -/
def regWrite (r : Reg) (v : Word) (s : State) : Option State :=
  match r with
  | .tileOrigin => some { s with tileOrigin := v }
  | .tileSize => some { s with tileSize := v }
  | .srcAddr => some { s with srcAddr := v }
  | .err => some (clearCmdError s)
  | .intStatus => some { s with intStatus := s.intStatus &&& ~~~(v.extractLsb' 0 5) }
  | .intEnable => some { s with intEnable := v.extractLsb' 0 5 }
  | .threshold => some { s with threshold := v.extractLsb' 0 16, partialCount := 0 }
  | .id => none
  | .geometry => none
  | .caps => none
  | .cmd => none
  | .result => none
  | .mode => none
  | .status => none
  | .partialCount => none
  | .accAlloc => none
  | .fallbackCount => none
  | .panelFailCount => none
  | .lastPanelFail => none

end Sys2Proof.Machine
end

