-- ==== Sys2Proof/Machine/Bus.lean ====
section
/-! DEFINITION. Transfers on the register bus (20_memory.md R60 to R66), the issue of a command (30_encoding.md R96,
60_exceptions.md R242), and the host's steps through its program (R66, R97, R99). -/

namespace Sys2Proof.Machine

/-- A transfer the bus takes: 32 bits at an offset that is a multiple of 4 (R61). -/
def transferLegal (off : Offset) (size : Nat) : Bool := decide (size = 32 ∧ off.toNat % 4 = 0)

/-- A bus read: one atomic step with no side effect but its response (R61 to R65, R75). -/
def busRead (off : Offset) (size : Nat) (s : State) : State :=
  if transferLegal off size then
    match locate s.cfg off.toNat with
    | .reg r => replyRead (regRead s r) s
    | .window k => replyRead (windowWord s k) s
    | .reserved => replyReadError s
  else replyReadError s

/-- A command word issued: an illegal word is rejected by its error, with BUSY first, and any other word runs its
command (R96, R242). -/
def issueCommand (w : Word) (s : State) : Host.Outcome State Fault Refusal :=
  match decode w with
  | .ok i => exec i s
  | .error e => .next (unlessBusy (raiseCmdError e) s)

/-- A write to a register: CMD always responds OKAY and issues the command (R24, R96); a read-only register responds
SLVERR (R63). -/
def writeReg (r : Reg) (data : Word) (s : State) : Host.Outcome State Fault Refusal :=
  if r = .cmd then issueCommand data (replyWrite s)
  else
    match regWrite r data s with
    | some t => .next (replyWrite t)
    | none => .next (replyWriteError s)

/-- A bus write (R61 to R65). -/
def busWrite (off : Offset) (size : Nat) (data : Word) (s : State) : Host.Outcome State Fault Refusal :=
  if transferLegal off size then
    match locate s.cfg off.toNat with
    | .reg r => writeReg r data s
    | .window _ => .next (replyWriteError s)
    | .reserved => .next (replyWriteError s)
  else .next (replyWriteError s)

/-! ### The host's program (20_memory.md R66, 30_encoding.md R97, R99) -/

/-- The value read ends the loop `wait_idle`: bit 0 is 0 (R99). A transfer with no value read does not end it. -/
def readsIdle (r : Option BusReply) : Bool :=
  match r.bind BusReply.data with
  | some v => decide (v &&& 1 = 0)
  | none => false

/-- One turn of `wait_idle`: a read of STATUS, and the loop ends if the value read says so (R99). -/
def pollStatus (rest : List HostOp) (s : State) : State :=
  let t := busRead (regBusOffset .status) 32 s
  if readsIdle t.busReply then setProgram rest t else t

/-- The host's next transfer, in program order (R66). -/
def hostStep (s : State) : Host.Outcome State Fault Refusal :=
  match s.program with
  | [] => .next s
  | .read off :: rest => .next (busRead off 32 (setProgram rest s))
  | .write off v :: rest => busWrite off 32 v (setProgram rest s)
  | .waitIdle :: rest => .next (pollStatus rest s)

end Sys2Proof.Machine
end

