-- ==== Sys2Proof/Machine/RefreshScheduler.lean ====
section
/-! DEFINITION. The refresh_scheduler, its panel port and the poll timer (43_refresh_scheduler.md). -/

namespace Sys2Proof.Machine

/-- The code of a request (R207). -/
def requestOp : PanelRequest → PanelOp
  | .powerOn => .powerOn
  | .selectLut _ => .selectLut
  | .draw _ _ => .draw
  | .refresh => .refresh
  | .powerOff => .powerOff

/-- Issues a panel request: it is outstanding until the panel answers, and it is recorded (R207). -/
def issueRequest (q : PanelRequest) (s : State) : State :=
  { s with outstanding := some (requestOp q), panelLog := s.panelLog ++ [q] }

/-- The scheduler returns to IDLE (R212, R213). -/
def toIdle (s : State) : State := { s with schedState := .idle, schedPhase := .none, plane := 0 }

/-- The step that starts a refresh cycle (R203). -/
def startCycle (s : State) : State :=
  issueRequest .powerOn { s with schedState := .refreshInProgress, schedPhase := .powerOn, plane := 0 }

/-- A poll tick: it starts a cycle from IDLE when DIRTY is set, and otherwise changes nothing (R202 to R204) but the
timer's own time since the last tick (R47). -/
def tick (s : State) : State :=
  let t := { s with pollElapsed := 0 }
  if s.schedState = .idle ∧ s.dirty = true then startCycle t else t

/-- Time passes; it never exceeds the poll interval between two ticks (R47, R201). DESIGN CHOICE: assumption 13. -/
def elapse (ms : Nat) (s : State) : State :=
  { s with pollElapsed := min (s.pollElapsed + ms) s.cfg.pollInterval }

/-- The refresh mode the counter selects (R205). -/
def decidedLut (s : State) : Lut := if s.partialCount.toNat < s.threshold.toNat then .partialLut else .fullLut

/-- The counter after the decision (R205). -/
def decidedCount (s : State) : BitVec 16 :=
  if s.partialCount.toNat < s.threshold.toNat then s.partialCount + 1 else 0

/-- POWER_ON answered OK: decide the mode (R205). -/
def decideMode (s : State) : State :=
  issueRequest (.selectLut (decidedLut s))
    { s with partialCount := decidedCount s, lut := decidedLut s, schedPhase := .selectLut }

/-- SELECT_LUT answered OK: start the first draw pass (R206). -/
def startDraw (s : State) : State := { s with schedPhase := .draw, plane := 0, drawIndex := 0, drawBuf := [] }

/-- DRAW answered OK: another pass for the next plane, or REFRESH (R209). -/
def nextPlane (s : State) : State :=
  if s.plane.toNat + 1 < s.cfg.panelPlanes then { s with plane := s.plane + 1, drawIndex := 0, drawBuf := [] }
  else issueRequest .refresh { s with plane := 0, schedPhase := .refresh }

/-- REFRESH answered OK: power off (R210). -/
def startPowerOff (s : State) : State := issueRequest .powerOff { s with schedPhase := .powerOff }

/-- POWER_OFF answered OK: the completion step (R211, R212). -/
def completeCycle (s : State) : State :=
  toIdle { s with dirty := false, intStatus := s.intStatus ||| causeRefreshDone }

/-- A request answered FAIL: the cycle aborts (R213). -/
def abortCycle (op : PanelOp) (s : State) : State :=
  toIdle
    { s with
      panelFailCount := s.panelFailCount + 1
      lastFailOp := panelOpCode op
      lastFailPlane := if op = .draw then s.plane else 0
      intStatus := s.intStatus ||| causeRefreshFail }

/-- What the scheduler does on OK, by the request answered (R205, R206, R209 to R211). -/
def onPanelOk (op : PanelOp) (s : State) : State :=
  match op with
  | .powerOn => decideMode s
  | .selectLut => startDraw s
  | .draw => nextPlane s
  | .refresh => startPowerOff s
  | .powerOff => completeCycle s

/-- The panel answers the request outstanding; with none outstanding the block does not act on it (R207, R265;
assumption 3). -/
def panelAnswer (a : PanelAnswer) (s : State) : State :=
  match s.outstanding with
  | none => s
  | some op =>
    match a with
    | .ok => onPanelOk op { s with outstanding := none }
    | .fail => abortCycle op { s with outstanding := none }

/-- The next byte of the draw pass, if one is left (R208). -/
def readDrawByte (s : State) : State :=
  if s.drawIndex < s.cfg.rasterBytes then
    { s with drawBuf := s.drawBuf ++ [rasterRead s s.drawIndex], drawIndex := s.drawIndex + 1 }
  else s

/-- DRAW is issued once every raster byte has been read (R208). -/
def issueDrawWhenRead (s : State) : State :=
  if s.cfg.rasterBytes ≤ s.drawIndex then issueRequest (.draw s.plane s.drawBuf) s else s

/-- The scheduler has a byte of a draw pass to read (R208). -/
def drawing (s : State) : Bool := decide (s.schedPhase = .draw ∧ s.outstanding = none)

/-- One step of the scheduler in a draw pass: one raster byte; the step that reads the last byte issues DRAW (R208,
DEDUCED from the step count of R278: assumption 10). Nothing when no draw pass is under way (assumption 3). -/
def schedStep (s : State) : State :=
  if drawing s then issueDrawWhenRead (readDrawByte s) else s

end Sys2Proof.Machine
end

