-- ==== Sys2Proof/Machine/TileEngine.lean ====
section
/-! DEFINITION. The tile engine's own steps: the pixel step (41_dither_engine.md R150), the four algorithms (R160 to
R168) and the completion step (42_raster_compositor.md R185). -/

namespace Sys2Proof.Machine

/-! ### The two stateless algorithms -/

/-- Disabled(L): dark below 128 (R161). -/
def ditherDisabled (l : Byte) : Bool := decide (l.toNat < 128)

/-- BAYER[y & 7][x & 7] (R160, R162). -/
def bayerEntry (p : Params) (x y : Nat) : Nat := p.bayer.getD (8 * (y % 8) + x % 8) 0

/-- Ordered(L, x, y), on absolute raster coordinates (R162). -/
def ditherOrdered (p : Params) (l : Byte) (x y : Nat) : Bool := decide (l.toNat < bayerEntry p x y * 4 + 2)

/-! ### Error diffusion -/

/-- One neighbour of a kernel: `dy` rows down, at cell `c + di` of that row, with numerator `k` (R164, R165). -/
structure KernelEntry where
  dy : Nat
  di : Nat
  k : Int
deriving DecidableEq, Repr

/-- The Floyd-Steinberg kernel, in the order of R164; the pixel reads cell c + 1. -/
def floydSteinberg : List KernelEntry := [⟨0, 2, 7⟩, ⟨1, 0, 3⟩, ⟨1, 1, 5⟩, ⟨1, 2, 1⟩]

/-- The Stucki kernel, row after row of the table of R165; the pixel reads cell c + 2. -/
def stucki : List KernelEntry :=
  [⟨0, 3, 12⟩, ⟨0, 4, 6⟩,
   ⟨1, 0, 3⟩, ⟨1, 1, 6⟩, ⟨1, 2, 12⟩, ⟨1, 3, 6⟩, ⟨1, 4, 3⟩,
   ⟨2, 0, 2⟩, ⟨2, 1, 3⟩, ⟨2, 2, 6⟩, ⟨2, 3, 3⟩, ⟨2, 4, 2⟩]

/-- The kernel of an algorithm (R164, R165). -/
def modeKernel : DitherMode → List KernelEntry
  | .disabled => []
  | .ordered => []
  | .ed2 => floydSteinberg
  | .ed3 => stucki

/-- The shift of a kernel's contributions (R8, R164, R165). -/
def modeShift : DitherMode → Nat
  | .disabled => 0
  | .ordered => 0
  | .ed2 => 4
  | .ed3 => 6

/-- OFF(mode): the cell of column c is c + OFF (R125). -/
def modeOffset : DitherMode → Nat
  | .disabled => 0
  | .ordered => 0
  | .ed2 => 1
  | .ed3 => 2

/-- clamp(v, lo, hi) (R10). -/
def clamp (v lo hi : Int) : Int := min (max v lo) hi

/-- corrected: the luma with its accumulated error, clamped (R163). -/
def correctedLuma (l : Byte) (e : Int) : Int := clamp (l.toNat + e) 0 255

/-- dark: quantised at 128 (R163). -/
def quantDark (corrected : Int) : Bool := decide (corrected < 128)

/-- err = corrected - q, with q = 0 for dark and 255 for light (R163). -/
def quantError (corrected : Int) : Int := corrected - (if quantDark corrected then 0 else 255)

/-- One contribution of an error to its cell, in the ring of `rows` rows at source row `r` (R164 to R166, R168). -/
def contribute (rows shift r c : Nat) (err : Int) (f : AccFile) (n : KernelEntry) : AccFile :=
  f.add ((r + n.dy) % rows) (c + n.di) (floorShift (err * n.k) shift)

/-- All contributions of one pixel, in the kernel's order (R164, R165). -/
def diffuse (algo : DitherMode) (r c : Nat) (err : Int) (f : AccFile) : AccFile :=
  (modeKernel algo).foldl (contribute (modeRows algo) (modeShift algo) r c err) f

/-- FloydSteinberg(L, r, c) and Stucki(L, r, c): the decision, and the accumulators after (R163 to R166). -/
def ditherDiffuse (algo : DitherMode) (l : Byte) (r c : Nat) (f : AccFile) : Bool × AccFile :=
  let corrected := correctedLuma l (f.cell (r % modeRows algo) (c + modeOffset algo))
  (quantDark corrected, diffuse algo r c (quantError corrected) f)

/-- The decision of the tile's algorithm for a luma, and the accumulators after (R150). -/
def ditherPixel (algo : DitherMode) (p : Params) (l : Byte) (x y r c : Nat) (f : AccFile) : Bool × AccFile :=
  match algo with
  | .disabled => (ditherDisabled l, f)
  | .ordered => (ditherOrdered p l x y, f)
  | .ed2 => ditherDiffuse .ed2 l r c f
  | .ed3 => ditherDiffuse .ed3 l r c f

/-- RowStart(r): the row that enters the ring as its farthest is zeroed (R167). -/
def rowStart (algo : DitherMode) (w r : Nat) (f : AccFile) : AccFile :=
  f.zeroRow ((r + modeRows algo - 1) % modeRows algo) (w + modePad algo)

/-! ### The pixel step -/

/-- The absolute raster column of the cursor (R13, R150). -/
def pixelX (s : State) : Nat := s.lx.toNat + s.curC

/-- The absolute raster row of the cursor (R13, R150). -/
def pixelY (s : State) : Nat := s.ly.toNat + s.curR

/-- PixAddr(r, c) of the cursor, exact (R68). -/
def pixAddr (s : State) : Nat := s.lsrc.toNat + (s.curR * s.lw.toNat + s.curC) * s.lbpp.toNat

/-- The luma of the cursor's pixel and the state after its source reads, byte 0 before byte 1 (R69, R150). -/
def readLuma (s : State) : Byte × State :=
  let r0 := srcRead (pixAddr s) s
  if s.lfmt = .rgb565 then
    let r1 := srcRead (pixAddr s + 1) r0.2
    (luma s.lfmt r0.1 r1.1, r1.2)
  else (luma s.lfmt r0.1 0, r0.2)

/-- The cursor's pixel is the last of its row (R150). -/
abbrev rowDone (s : State) : Prop := s.curC + 1 = s.lw.toNat

/-- A RowStart follows: the row is done, another one is left, and the algorithm diffuses error (R150, R167). -/
abbrev startsRow (s : State) : Prop := rowDone s ∧ diffuses s.algo = true ∧ s.curR + 1 < s.lh.toNat

/-- The cursor moves on; the last pixel of a row starts the next row (R150, R167). -/
def advanceCursor (s : State) : State :=
  { s with
    curC := if rowDone s then 0 else s.curC + 1
    curR := if rowDone s then s.curR + 1 else s.curR
    acc := if startsRow s then rowStart s.algo s.lw.toNat (s.curR + 1) s.acc else s.acc }

/-- The effect of a pixel step (R150). -/
def pixelEffect (s : State) : State :=
  let read := readLuma s
  let d := ditherPixel s.algo s.cfg read.1 (pixelX s) (pixelY s) s.curR s.curC s.acc
  advanceCursor (pixelWrite (pixelX s) (pixelY s) d.1 { read.2 with acc := d.2 })

/-- The last source byte a pixel step may read lies in the 32-bit source space (R67, R69). -/
def sourceInRange (s : State) : Bool :=
  decide (pixAddr s + (if s.lfmt = .rgb565 then 1 else 0) < 2 ^ 32)

/-- The pixel lies in the raster (R181). -/
def pixelInRange (s : State) : Bool := decide (pixelX s < s.cfg.screenW ∧ pixelY s < s.cfg.screenH)

/-- The rows hold every cell a pixel step of this algorithm touches (R164, R165). -/
def accInRange (s : State) : Bool := !diffuses s.algo || s.acc.holds (s.curC + modePad s.algo + 1)

/-- The pixel step. Its three stops are for states that no run reaches (assumption 16). -/
def pixelStep (s : State) : Host.Outcome State Fault Refusal :=
  if !pixelInRange s then .fault .rasterOutOfRange
  else if !sourceInRange s then .fault .sourceOutOfRange
  else if !accInRange s then .fault .accOutOfRange
  else .next (pixelEffect s)

/-- The completion step: DIRTY and TILE_DONE set, BUSY cleared, at once (R185). -/
def completeTile (s : State) : State :=
  { s with dirty := true, busy := false, intStatus := s.intStatus ||| causeTileDone }

/-- A pixel is left: LW > 0 and r < LH (R150). -/
def pixelLeft (s : State) : Bool := decide (0 < s.lw.toNat ∧ s.curR < s.lh.toNat)

/-- One step of the tile engine: a pixel step while a pixel is left, else the completion step (R145, R150, R185);
nothing while BUSY = 0 (assumption 3). -/
def tileStep (s : State) : Host.Outcome State Fault Refusal :=
  if !s.busy then .next s
  else if pixelLeft s then pixelStep s
  else .next (completeTile s)

end Sys2Proof.Machine
end

