-- ==== Sys2Proof/Machine/Agents.lean ====
section
/-! DEFINITION. The step of each agent (00_scope.md R4), and the reset input (70_reset_and_hazards.md R265). -/

namespace Sys2Proof.Machine

/-- Reset asserted: every piece of the block's state takes its reset value, in one step. The source memory, the panel's
record, the schedule and the host's program are outside the block (DEDUCED: assumption 12). -/
def assertReset (s : State) : State :=
  { resetWith s.cfg with
    src := s.src
    panelLog := s.panelLog
    schedule := s.schedule
    program := s.program
    freeCount := s.freeCount
    resetHeld := true }

/-- A bus transfer that gets no response: reset is held (R265). -/
def noReply (s : State) : State := { s with busReply := none }

/-- While reset is held the block answers no transfer and takes no step, so the host's program waits; the host's memory
is outside the block (R265). DEDUCED: assumption 11. -/
def heldStep (e : Event) (s : State) : State :=
  match e with
  | .busRead _ _ => noReply s
  | .busWrite _ _ _ => noReply s
  | .hostStep => if s.program.isEmpty then s else noReply s
  | .srcWrite a b => srcWrite a b s
  | .tileStep => s
  | .schedStep => s
  | .tick => s
  | .elapse _ => s
  | .panelAnswer _ => s
  | .resetAssert => assertReset s
  | .resetRelease => { s with resetHeld := false }

/-- One step of one agent while reset is not held (R4). -/
def agentStep (e : Event) (s : State) : Host.Outcome State Fault Refusal :=
  match e with
  | .busRead off size => .next (busRead off size s)
  | .busWrite off size data => busWrite off size data s
  | .hostStep => hostStep s
  | .srcWrite a b => .next (srcWrite a b s)
  | .tileStep => tileStep s
  | .schedStep => .next (schedStep s)
  | .tick => .next (tick s)
  | .elapse ms => .next (elapse ms s)
  | .panelAnswer a => .next (panelAnswer a s)
  | .resetAssert => .next (assertReset s)
  | .resetRelease => .next s

/-- One atomic step of the block and its environment. -/
def handle (e : Event) (s : State) : Host.Outcome State Fault Refusal :=
  if s.resetHeld then .next (heldStep e s) else agentStep e s

/-- Which agent moves: the head of the schedule, or a free event where nothing is scheduled (R4; DESIGN CHOICE:
assumption 2). -/
def nextEvent (s : State) : Event :=
  match s.schedule with
  | e :: _ => e
  | [] => Config.freeEvent s.freeCount

/-- The state with that move taken off the schedule. -/
def takeEvent (s : State) : State :=
  match s.schedule with
  | _ :: rest => { s with schedule := rest }
  | [] => { s with freeCount := s.freeCount + 1 }

/-- The event by which the host issues a command word: one aligned 32-bit write to CMD (R24, R90). -/
def commandEvent (w : Word) : Event := .busWrite (regBusOffset .cmd) 32 w

/-- The state in which the host's next step issues the command word, with reset released (assumption 1). -/
def withCommand (w : Word) (s : State) : State :=
  { s with schedule := commandEvent w :: s.schedule, resetHeld := false }

end Sys2Proof.Machine
end

