-- ==== Sys2Proof/Machine/Step.lean ====
section
/-! DEFINITION. One step of the machine: one atomic step of one agent (00_scope.md R4, R11). -/

namespace Sys2Proof.Machine

/-- The next agent's step. -/
def step (s : State) : Host.Outcome State Fault Refusal := handle (nextEvent s) (takeEvent s)

/-- The state whose very next step is the host's write of this command word to CMD: the block fetches nothing
(R42, R82), so a command comes only from a bus write (assumption 1). -/
def State.withFetchWord (s : State) (nbits w : Nat) : State := withCommand (tableWord nbits w) s

end Sys2Proof.Machine
end

