-- ==== Sys2Proof/Machine/Fairness.lean ====
section
/-! DEFINITION. Runs without end, and the weak fairness that 70_reset_and_hazards.md R278 assumes of the agents. -/

namespace Sys2Proof.Machine

/-- The agents of R4 that take steps of their own; the source memory answers inside the tile engine's step (R67). -/
inductive Agent where
  | host
  | tileEngine
  | scheduler
  | pollTimer
  | panel
deriving DecidableEq, Repr

/-- The agent has a step to take (R278); none has while reset is held (R265). -/
def Agent.ready (a : Agent) (s : State) : Prop :=
  s.resetHeld = false ∧
    match a with
    | .host => s.program ≠ []
    | .tileEngine => s.busy = true
    | .scheduler => drawing s = true
    | .pollTimer => True
    | .panel => s.outstanding ≠ none

/-- The event is that agent's step; the host's is the next transfer of its program. -/
def Agent.takes (a : Agent) (e : Event) : Prop :=
  match a with
  | .host => e = .hostStep
  | .tileEngine => e = .tileStep
  | .scheduler => e = .schedStep
  | .pollTimer => e = .tick
  | .panel => ∃ r, e = .panelAnswer r

/-- The state in which the next step of the machine is the given event's. -/
def offer (e : Event) (s : State) : State := { s with schedule := [e] }

/-- A run of the machine without end: step n of the machine, offered the event `ev n`, takes state `σ n` to the next
state of the run. -/
def IsRun (σ : Nat → State) (ev : Nat → Event) : Prop := ∀ n, step (offer (ev n) (σ n)) = .next (σ (n + 1))

/-- Weak fairness for each agent (R278): one that is ready from some point on takes a step after it. -/
def WeaklyFair (σ : Nat → State) (ev : Nat → Event) : Prop :=
  ∀ (a : Agent) (n : Nat), (∀ m, n ≤ m → a.ready (σ m)) → ∃ m, n ≤ m ∧ a.takes (ev m)

end Sys2Proof.Machine
end

