-- ==== Sys2Proof/Machine/HostProgram.lean ====
section
/-! DEFINITION. Host programs (30_encoding.md R97 to R99): the assembler's command words, with its errors, and the
expansion of every statement and pseudo-instruction into the operations that the host's steps carry out (`hostStep`). -/

namespace Sys2Proof.Machine

/-- A command as the assembler reads it: operands are numbers that may not fit their field (R97, R98). -/
inductive AsmCommand where
  | setMode (m : Nat)
  | getMode
  | setEnabled (e : Nat)
  | isEnabled
  | freeBuffers
  | sampleLuma (f b0 b1 : Nat)
  | convertArea (f p : Nat)
deriving DecidableEq, Repr

/-- The command word of R98, or none: an operand that does not fit its field is an assembly error. -/
def assemble : AsmCommand → Option Word
  | .setMode m => if m < 4 then some (BitVec.ofNat 32 (m <<< 8 ||| 0x01)) else none
  | .getMode => some 0x00000002
  | .setEnabled e => if e < 2 then some (BitVec.ofNat 32 (e <<< 8 ||| 0x03)) else none
  | .isEnabled => some 0x00000004
  | .freeBuffers => some 0x00000005
  | .sampleLuma f b0 b1 =>
    if f < 16 ∧ b0 < 256 ∧ b1 < 256 then some (BitVec.ofNat 32 (b1 <<< 24 ||| b0 <<< 16 ||| f <<< 8 ||| 0x06))
    else none
  | .convertArea f p =>
    if f < 16 ∧ p < 8 then some (BitVec.ofNat 32 (p <<< 12 ||| f <<< 8 ||| 0x07)) else none

/-- `wr` of a register by its name (R97). -/
def writeOp (r : Reg) (v : Word) : HostOp := .write (regBusOffset r) v

/-- `rd` of a register by its name (R97). -/
def readOp (r : Reg) : HostOp := .read (regBusOffset r)

/-- Two 16-bit operands of `tile` packed in one register word, the second in the high half, if they fit (R99). -/
def packHalves (lo hi : Nat) : Option Word :=
  if lo < 2 ^ 16 ∧ hi < 2 ^ 16 then some (BitVec.ofNat 32 (hi <<< 16 ||| lo)) else none

/-- A statement of a host program (R97, R99). -/
inductive HostStmt where
  | wr (r : Reg) (v : Word)
  | wrAt (off : Offset) (v : Word)
  | rd (r : Reg)
  | rdAt (off : Offset)
  | command (c : AsmCommand)
  | tile (x y w h src : Nat)
  | waitIdle
  | convert (x y w h src f p : Nat)
  | enable
  | disable
  | ackAll
  | clearErr
deriving DecidableEq, Repr

/-- The transfer of a command: one write of its word to CMD (R97). -/
def expandCommand (c : AsmCommand) : Option (List HostOp) :=
  match assemble c with
  | some w => some [writeOp .cmd w]
  | none => none

/-- The three writes of `tile` (R99). -/
def expandTile (x y w h src : Nat) : Option (List HostOp) :=
  match packHalves x y, packHalves w h with
  | some origin, some size =>
    if src < 2 ^ 32 then
      some [writeOp .tileOrigin origin, writeOp .tileSize size, writeOp .srcAddr (BitVec.ofNat 32 src)]
    else none
  | _, _ => none

/-- The operations a statement stands for, or none where the assembler refuses it (R97 to R99). -/
def expand : HostStmt → Option (List HostOp)
  | .wr r v => some [writeOp r v]
  | .wrAt off v => some [.write off v]
  | .rd r => some [readOp r]
  | .rdAt off => some [.read off]
  | .command c => expandCommand c
  | .tile x y w h src => expandTile x y w h src
  | .waitIdle => some [.waitIdle]
  | .convert x y w h src f p =>
    match expandTile x y w h src, expandCommand (.convertArea f p) with
    | some t, some c => some (t ++ c ++ [.waitIdle])
    | _, _ => none
  | .enable => expandCommand (.setEnabled 1)
  | .disable => expandCommand (.setEnabled 0)
  | .ackAll => some [writeOp .intStatus 0x1F]
  | .clearErr => some [writeOp .err 0]

/-- The operations of a host program, statement after statement, if the assembler takes them all (R97). -/
def expandProgram : List HostStmt → Option (List HostOp)
  | [] => some []
  | st :: rest =>
    match expand st, expandProgram rest with
    | some ops, some more => some (ops ++ more)
    | _, _ => none

end Sys2Proof.Machine
end

