-- ==== Sys2Proof/Safety.lean ====
section
/-! DEFINITION. What counts as a safe run, in the terms claims use: the invariant that every step keeps (10_state.md
R36, R44 to R46, R48, R51), runs of the tile engine alone, and runs of a list of events. -/

namespace Sys2Proof.Machine

/-! ### Outcomes and runs -/

/-- The step does not stop: a next state is answered. -/
def Completes (o : Host.Outcome State Fault Refusal) : Prop := ∃ t, o = .next t

/-- `n` steps of the tile engine, with no other agent's step between them (R150, R278). -/
def tileRun : Nat → State → Host.Outcome State Fault Refusal
  | 0, s => .next s
  | n + 1, s =>
    match tileStep s with
    | .next t => tileRun n t
    | .fault r => .fault r
    | .refused r => .refused r

/-- The agents take the given steps, in order. -/
def runEvents : List Event → State → Host.Outcome State Fault Refusal
  | [], s => .next s
  | e :: es, s =>
    match handle e s with
    | .next t => runEvents es t
    | .fault r => .fault r
    | .refused r => .refused r

/-! ### The invariant -/

/-- The registers hold only values the spec gives them. -/
structure RegisterInv (s : State) : Prop where
  /-- the parameters are legal (R7) -/
  legal : s.cfg.Legal
  /-- LAST_MODE is never 0 (R48) -/
  lastMode_ne : s.lastMode ≠ .disabled
  /-- MODE ≠ 0 gives LAST_MODE = MODE (R48) -/
  lastMode_eq : s.mode ≠ .disabled → s.lastMode = s.mode
  /-- ERR.CODE is one of 0 to 5 (R240) -/
  errCode_le : s.errCode.toNat ≤ 5
  /-- OVERFLOW is set only while CODE ≠ 0 (R31) -/
  errOverflow_code : s.errOverflow = true → s.errCode ≠ 0
  /-- PARTIAL_COUNT ≤ THRESHOLD (R51) -/
  partial_le : s.partialCount.toNat ≤ s.threshold.toNat
  /-- ROWS is 0, 2 or 3 (R36) -/
  accRows_cases : s.accRows = 0 ∨ s.accRows = 2 ∨ s.accRows = 3
  /-- ROWS = 0 if and only if WIDTH = 0 (R36) -/
  accRows_zero_iff : s.accRows = 0 ↔ s.accWidth = 0
  /-- the allocated width fits the row (R142) -/
  accWidth_le : s.accWidth.toNat ≤ s.cfg.accRowCells
  /-- LAST_PANEL_FAIL.OP is 0 or a request code (R39) -/
  lastFailOp_le : s.lastFailOp.toNat ≤ 5
  /-- LAST_PANEL_FAIL.PLANE is 0 but for a failed DRAW (R39) -/
  lastFailPlane_draw : s.lastFailPlane ≠ 0 → s.lastFailOp = 3

/-- The memories are canonical, and every accumulator row has its capacity (R45, R67, R70). -/
structure MemoryInv (s : State) : Prop where
  raster_wf : Memory.wf rasterUnlisted s.cfg.rasterBytes s.raster
  src_wf : Memory.wf sourceUnlisted (2 ^ 32) s.src
  row0_length : s.acc.row0.length = s.cfg.accRowCells
  row1_length : s.acc.row1.length = s.cfg.accRowCells
  row2_length : s.acc.row2.length = s.cfg.accRowCells

/-- What a running tile has latched stays inside what R141 and R142 checked. -/
structure RunningTile (s : State) : Prop where
  x_fits : s.lx.toNat + s.lw.toNat ≤ s.cfg.screenW
  y_fits : s.ly.toNat + s.lh.toNat ≤ s.cfg.screenH
  bpp_range : 1 ≤ s.lbpp.toNat ∧ s.lbpp.toNat ≤ 4
  rgb565_bpp : s.lfmt = .rgb565 → 2 ≤ s.lbpp.toNat
  src_fits : s.lsrc.toNat + s.lw.toNat * s.lh.toNat * s.lbpp.toNat ≤ 2 ^ 32
  row_le : s.curR ≤ s.lh.toNat
  col_lt : s.curC < max s.lw.toNat 1
  col_at_end : s.curR = s.lh.toNat → s.curC = 0
  /-- the algorithm is the mode, or DISABLED after a fallback (R143, R146) -/
  algo_mode : s.algo = s.mode ∨ s.algo = .disabled
  /-- an error-diffusion tile has its rows allocated (R142) -/
  alloc : diffuses s.algo = true →
    s.accRows.toNat = modeRows s.algo ∧ s.lw.toNat + modePad s.algo ≤ s.accWidth.toNat

/-- The request a phase waits for, outside DRAW (R30, R200). -/
def phaseRequest : SchedPhase → Option PanelOp
  | .none => none
  | .powerOn => some .powerOn
  | .selectLut => some .selectLut
  | .draw => some .draw
  | .refresh => some .refresh
  | .powerOff => some .powerOff

/-- The scheduler's fields agree with its phase (R30, R46, R200, R208). -/
structure SchedulerInv (s : State) : Prop where
  /-- SCHED_PHASE is NONE exactly in IDLE (R200) -/
  idle_iff : s.schedState = .idle ↔ s.schedPhase = .none
  plane_lt : s.plane.toNat < s.cfg.panelPlanes
  /-- PLANE is 0 outside DRAW (R30) -/
  plane_zero : s.schedPhase ≠ .draw → s.plane = 0
  /-- outside DRAW the phase's request is outstanding, and none is in IDLE -/
  outstanding_eq : s.schedPhase ≠ .draw → s.outstanding = phaseRequest s.schedPhase
  /-- in DRAW the pass is either still reading or has sent the whole raster (R208) -/
  draw_pass : s.schedPhase = .draw →
    s.drawBuf.length = s.drawIndex ∧
      ((s.outstanding = none ∧ s.drawIndex < s.cfg.rasterBytes) ∨
        (s.outstanding = some .draw ∧ s.drawIndex = s.cfg.rasterBytes))

/-- The invariant of the machine. -/
structure MachineInv (s : State) : Prop where
  registers : RegisterInv s
  memory : MemoryInv s
  tile : s.busy = true → RunningTile s
  scheduler : SchedulerInv s

/-- The padding bits of every raster row read 0 (R71). -/
def PaddingLight (s : State) : Prop :=
  ∀ x y, s.cfg.screenW ≤ x → x < 8 * s.cfg.bytesPerRow → y < s.cfg.screenH → rasterPixel s x y = false

end Sys2Proof.Machine
end

