-- ==== Sys2Proof/Certificates/Slice0/Obligations.lean ====
section
/-! DEFINITION. The statements for the provers. Each says in its docstring which rule of the spec it formalises. The
helpers under Claims restate the spec's tables and formulas on plain numbers, apart from the model's own functions. -/

namespace Sys2Proof.Claims

open Sys2Proof.Machine

/-! ### Command words -/

/-- The reserved bits of each opcode's format (R92). -/
def reservedBits : Nat → Word
  | 1 => 0xFFFFFC00
  | 2 => 0xFFFFFF00
  | 3 => 0xFFFFFE00
  | 4 => 0xFFFFFF00
  | 5 => 0xFFFFFF00
  | 6 => 0x0000F000
  | 7 => 0xFFFF8000
  | _ => 0

/-- OP of a word (R91). -/
def opOf (w : Word) : Nat := w.toNat % 256

/-- The codes of R240. -/
def codeOf : CmdError → BitVec 4
  | .illegalOpcode => 1
  | .reservedBits => 2
  | .busy => 3
  | .badArg => 4
  | .bounds => 5

/-- The state after a command error of a given code (R241). -/
def rejected (code : BitVec 4) (s : State) : State :=
  { s with
    errCode := if s.errCode = 0 then code else s.errCode
    errOverflow := if s.errCode = 0 then s.errOverflow else true
    intStatus := s.intStatus ||| 0b00010 }

/-- X, Y, W and H (R26, R27). -/
def argX (s : State) : Nat := s.tileOrigin.toNat % 65536
def argY (s : State) : Nat := s.tileOrigin.toNat / 65536
def argW (s : State) : Nat := s.tileSize.toNat % 65536
def argH (s : State) : Nat := s.tileSize.toNat / 65536

/-- The code of the first argument check of R141 that fails, for a BPP and for FMT = RGB565 or not. -/
def argCode (isRgb565 : Bool) (bpp : Nat) (s : State) : Option (BitVec 4) :=
  if bpp = 0 ∨ bpp > 4 then some 4
  else if isRgb565 = true ∧ bpp < 2 then some 4
  else if s.srcAddr.toNat + argW s * argH s * bpp > 2 ^ 32 then some 4
  else if argX s + argW s > s.cfg.screenW ∨ argY s + argH s > s.cfg.screenH then some 5
  else none

/-- The code of the first check of R242 that a command word fails. -/
def firstError (w : Word) (s : State) : Option (BitVec 4) :=
  if s.busy = true then some 3
  else if opOf w = 0 ∨ 8 ≤ opOf w then some 1
  else if w &&& reservedBits (opOf w) ≠ 0 then some 2
  else if opOf w = 7 then argCode (decide (w.toNat / 256 % 16 = 2)) (w.toNat / 4096 % 8) s
  else none

/-- The instruction an assembler command stands for, where its operands fit (R93, R97). -/
def instrOf : AsmCommand → Instr
  | .setMode m => .setMode (.ofBits (BitVec.ofNat 2 m))
  | .getMode => .getMode
  | .setEnabled e => .setEnabled (decide (e = 1))
  | .isEnabled => .isEnabled
  | .freeBuffers => .freeBuffers
  | .sampleLuma f b0 b1 => .sampleLuma (.ofBits (BitVec.ofNat 4 f)) (BitVec.ofNat 8 b0) (BitVec.ofNat 8 b1)
  | .convertArea f p => .convertArea (.ofBits (BitVec.ofNat 4 f)) (BitVec.ofNat 3 p)

/-- Every operand of an assembler command fits its field (R98). -/
def operandsFit : AsmCommand → Prop
  | .setMode m => m ≤ 3
  | .getMode => True
  | .setEnabled e => e ≤ 1
  | .isEnabled => True
  | .freeBuffers => True
  | .sampleLuma f b0 b1 => f ≤ 15 ∧ b0 ≤ 255 ∧ b1 ≤ 255
  | .convertArea f p => f ≤ 15 ∧ p ≤ 7

/-! ### Dithering on plain numbers -/

/-- The number of a DitherMode (R29). -/
def modeNumber : DitherMode → Nat
  | .disabled => 0
  | .ordered => 1
  | .ed2 => 2
  | .ed3 => 3

/-- ROWS and PAD (R125). -/
def rowsOf : DitherMode → Nat
  | .ed2 => 2
  | .ed3 => 3
  | _ => 0

def padOf : DitherMode → Nat
  | .ed2 => 2
  | .ed3 => 4
  | _ => 0

/-- A channel expanded from 0 .. max to 0 .. 255 (R112). -/
def expand (max c : Nat) : Nat := (c * 255 + max / 2) / max

/-- The luma of a pixel's bytes (R111 to R116). -/
def lumaOf (fmt : Format) (b0 b1 : Byte) : Nat :=
  match fmt with
  | .l8 => b0.toNat
  | .unsupported _ => b0.toNat
  | .rgb332 =>
    (77 * expand 7 (b0.toNat / 32) + 150 * expand 7 (b0.toNat / 4 % 8) + 29 * expand 3 (b0.toNat % 4)) / 256
  | .rgb565 =>
    let v := b1.toNat * 256 + b0.toNat
    (77 * expand 31 (v / 2048) + 150 * expand 63 (v / 32 % 64) + 29 * expand 31 (v % 32)) / 256

/-- The luma of pixel (c, r) of the running tile, from the bytes the host has left in the source memory (R67 to R69).
-/
def tileLuma (s : State) (r c : Nat) : Nat :=
  let a := s.lsrc.toNat + (r * s.lw.toNat + c) * s.lbpp.toNat
  lumaOf s.lfmt (sourceByte s a) (sourceByte s (a + 1))

/-- The address of byte 0 of the cursor's pixel (R68). -/
def pixelAddress (s : State) : Nat := s.lsrc.toNat + (s.curR * s.lw.toNat + s.curC) * s.lbpp.toNat

/-- wrap16 (R168). -/
def wrap (v : Int) : Int := (v + 32768) % 65536 - 32768

/-- corrected, and err, of R163. -/
def correctedOf (l : Byte) (e : Int) : Int := min (max (l.toNat + e) 0) 255

def errOf (l : Byte) (e : Int) : Int :=
  if correctedOf l e < 128 then correctedOf l e else correctedOf l e - 255

/-- The Floyd-Steinberg weight of the cell `dy` rows down and `di` cells right of cell c (R164); the pixel's own cell
is di = 1 of row 0. -/
def fsWeight (dy : Nat) (di : Int) : Int :=
  if dy = 0 ∧ di = 2 then 7
  else if dy = 1 ∧ di = 0 then 3
  else if dy = 1 ∧ di = 1 then 5
  else if dy = 1 ∧ di = 2 then 1
  else 0

/-- The weight of the table of R165 for row offset dy and column offset dx. -/
def stuckiWeight (dy : Nat) (dx : Int) : Int :=
  if dy = 0 then (if dx = 1 then 12 else if dx = 2 then 6 else 0)
  else if dy = 1 then
    (if dx = 0 then 12 else if dx = 1 ∨ dx = -1 then 6 else if dx = 2 ∨ dx = -2 then 3 else 0)
  else if dy = 2 then
    (if dx = 0 then 6 else if dx = 1 ∨ dx = -1 then 3 else if dx = 2 ∨ dx = -2 then 2 else 0)
  else 0

/-- A tile at its first pixel, with no source byte changed by the host since it was accepted (R140). -/
def AtTileStart (s : State) : Prop := s.busy = true ∧ s.curR = 0 ∧ s.curC = 0 ∧ s.srcChanged = []

/-- The cells a tile uses hold 0, as the accepting step leaves them (R144). -/
def CellsZero (s : State) : Prop :=
  ∀ j i, j < rowsOf s.algo → i < s.lw.toNat + padOf s.algo → s.acc.cell j i = 0

/-! ### Bus -/

/-- The write of a command word to CMD (R90). -/
def cmdWrite (w : Word) : Event := .busWrite 0x010 32 w

/-- The offsets of the registers (R20). -/
def registerOffsets : List Nat :=
  [0x000, 0x004, 0x008, 0x010, 0x014, 0x018, 0x01C, 0x020, 0x024, 0x028, 0x02C, 0x030, 0x034, 0x038, 0x03C, 0x040,
   0x044, 0x048, 0x04C]

/-- The offsets of the read-only registers of R63. -/
def readOnlyOffsets : List Nat :=
  [0x000, 0x004, 0x008, 0x014, 0x024, 0x028, 0x03C, 0x040, 0x044, 0x048, 0x04C]

/-- The offset lies in the RASTER window (R72). -/
def InWindow (p : Params) (off : Nat) : Prop :=
  0x01000 ≤ off ∧ off < 0x01000 + 4 * ((p.screenW + 7) / 8 * p.screenH / 4 +
    (if (p.screenW + 7) / 8 * p.screenH % 4 = 0 then 0 else 1))

/-- The state with a transfer's response. -/
def replied (code : BusCode) (data : Option Word) (s : State) : State := { s with busReply := some ⟨code, data⟩ }

/-- An aligned read of 32 bits at an offset answers OKAY with a value, and changes nothing else. -/
def Reads (s : State) (off : Offset) (v : Nat) : Prop :=
  v < 2 ^ 32 ∧ agentStep (.busRead off 32) s = .next (replied .okay (some (BitVec.ofNat 32 v)) s)

/-- The number of a SCHED_PHASE (R30). -/
def phaseNumber : SchedPhase → Nat
  | .none => 0
  | .powerOn => 1
  | .selectLut => 2
  | .draw => 3
  | .refresh => 4
  | .powerOff => 5

/-- The event writes a command word to CMD: as a transfer of its own, or as the next one of the host's program (R97). -/
def WritesCommand (e : Event) (s : State) (w : Word) : Prop :=
  e = cmdWrite w ∨ (e = .hostStep ∧ ∃ rest, s.program = .write 0x010 w :: rest)

/-- A flag as a number. -/
def bit (b : Bool) : Nat := if b then 1 else 0

/-- Raster byte i as the window shows it (R72). -/
def shownByte (s : State) (i : Nat) : Nat :=
  if i < (s.cfg.screenW + 7) / 8 * s.cfg.screenH then (rasterRead s i).toNat else 0

/-! ### Raster -/

/-- Bit b of raster byte i. -/
def rasterBit (s : State) (i b : Nat) : Bool := (rasterRead s i).getLsbD b

/-- Bit b of raster byte i is pixel (x, y) (R71, R180). -/
def IsPixel (p : Params) (i b x y : Nat) : Prop := i = y * ((p.screenW + 7) / 8) + x / 8 ∧ b = 7 - x % 8

end Sys2Proof.Claims

open Sys2Proof Sys2Proof.Machine Sys2Proof.Claims

/-! ## Encoding (30_encoding.md) -/

/-- Decoding the encoding of a well-formed instruction gives it back, for every operand value (R92 to R94, R98). -/
def Obligations.DecodeOfEncodeGivesBackInstr : Prop :=
  ∀ i : Instr, i.wellFormed = true → decode (encode i) = .ok i

/-- A word that decodes is the encoding of a well-formed instruction: no two words mean the same command (R92 to R94).
-/
def Obligations.EncodeOfDecodeGivesBackWord : Prop :=
  ∀ (w : Word) (i : Instr), decode w = .ok i → i.wellFormed = true ∧ encode i = w

/-- The worked encodings of R100 are the encoder's words, and the decoder reads them back. -/
def Obligations.WorkedEncodingsAgree : Prop :=
  (encode (.setMode .ed3) = 0x00000301 ∧ encode (.setMode .disabled) = 0x00000001 ∧
    encode (.setEnabled true) = 0x00000103 ∧ encode .getMode = 0x00000002 ∧
    encode (.sampleLuma .rgb565 0x1F 0xF8) = 0xF81F0206 ∧ encode (.sampleLuma .rgb332 0xE0 0) = 0x00E00106 ∧
    encode (.convertArea .l8 1) = 0x00001007 ∧ encode (.convertArea .rgb565 2) = 0x00002207) ∧
  ([decode 0x00000301, decode 0x00000001, decode 0x00000103, decode 0x00000002, decode 0xF81F0206, decode 0x00E00106,
      decode 0x00001007, decode 0x00002207].map (fun d => d.toOption) =
    [some (.setMode .ed3), some (.setMode .disabled), some (.setEnabled true), some .getMode,
      some (.sampleLuma .rgb565 0x1F 0xF8), some (.sampleLuma .rgb332 0xE0 0), some (.convertArea .l8 1),
      some (.convertArea .rgb565 2)])

/-- Every word is classified by its opcode and its reserved bits alone (R91, R94, R95). -/
def Obligations.DecodeClassifiesEveryWord : Prop :=
  ∀ w : Word,
    (opOf w = 0 ∨ 8 ≤ opOf w → decode w = .error .illegalOpcode) ∧
    (1 ≤ opOf w → opOf w ≤ 7 → w &&& reservedBits (opOf w) ≠ 0 → decode w = .error .reservedBits) ∧
    (1 ≤ opOf w → opOf w ≤ 7 → w &&& reservedBits (opOf w) = 0 → ∃ i, decode w = .ok i)

/-- The assembler makes a word exactly when every operand fits, and the word decodes to the command written (R98). -/
def Obligations.AssembledWordDecodesToItsCommand : Prop :=
  ∀ c : AsmCommand,
    (operandsFit c → ∃ w, assemble c = some w ∧ decode w = .ok (instrOf c)) ∧
    (¬operandsFit c → assemble c = none)

/-! ## Command errors (60_exceptions.md) -/

/-- A command error keeps the first code, marks a further one, sets CMD_ERR and changes nothing else; the write to CMD
takes it in its own step, in place of the command, and still answers OKAY (R241). -/
def Obligations.CommandErrorChangesOnlyErrAndCause : Prop :=
  (∀ (e : CmdError) (s : State), raiseCmdError e s = rejected (codeOf e) s) ∧
  ∀ (w : Word) (c : BitVec 4) (s : State), firstError w s = some c →
    agentStep (cmdWrite w) s = .next (rejected c (replied .okay none s))

/-- A command word is rejected by the first check of R242 that fails, and runs its command if none fails. -/
def Obligations.CommandChecksRunInOrder : Prop :=
  ∀ (w : Word) (s : State),
    (∀ c, firstError w s = some c → issueCommand w s = .next (rejected c s)) ∧
    (firstError w s = none →
      ∃ i t, decode w = .ok i ∧ issueCommand w s = exec i s ∧ exec i s = .next t ∧
        t.errCode = s.errCode ∧ t.errOverflow = s.errOverflow)

/-! ## The commands (40_color_sampler.md, 41_dither_engine.md) -/

/-- SET_MODE while no tile runs: nothing for the current mode, else the buffers go and the mode is recorded (R130). -/
def Obligations.SetModeCompletes : Prop :=
  ∀ (m : DitherMode) (s : State), s.busy = false →
    exec (.setMode m) s =
      .next (if m = s.mode then s
        else { s with
          accRows := 0
          accWidth := 0
          mode := m
          lastMode := if m ≠ .disabled then m else s.lastMode })

/-- SET_ENABLED while no tile runs: enabling restores LAST_MODE from DISABLED and else does nothing; disabling selects
DISABLED (R132). -/
def Obligations.SetEnabledCompletes : Prop :=
  ∀ s : State, s.busy = false →
    (s.mode ≠ .disabled → exec (.setEnabled true) s = .next s) ∧
    (s.mode = .disabled → s.lastMode ≠ .disabled →
      exec (.setEnabled true) s = .next { s with accRows := 0, accWidth := 0, mode := s.lastMode }) ∧
    (s.mode = .disabled → s.lastMode = .disabled → exec (.setEnabled true) s = .next s) ∧
    (s.mode = .disabled → exec (.setEnabled false) s = .next s) ∧
    (s.mode ≠ .disabled →
      exec (.setEnabled false) s = .next { s with accRows := 0, accWidth := 0, mode := .disabled })

/-- GET_MODE and IS_ENABLED while no tile runs write RESULT and nothing else (R131, R133). -/
def Obligations.ModeQueriesComplete : Prop :=
  ∀ s : State, s.busy = false →
    exec .getMode s = .next { s with result := BitVec.ofNat 32 (modeNumber s.mode) } ∧
    exec .isEnabled s = .next { s with result := if s.mode ≠ .disabled then 1 else 0 }

/-- FREE_BUFFERS while no tile runs clears ACC_ALLOC and nothing else (R134). -/
def Obligations.FreeBuffersCompletes : Prop :=
  ∀ s : State, s.busy = false → exec .freeBuffers s = .next { s with accRows := 0, accWidth := 0 }

/-- SAMPLE_LUMA while no tile runs writes the luma of R111 to R116 to RESULT, and nothing else (R118). -/
def Obligations.SampleLumaCompletes : Prop :=
  ∀ (fmt : Format) (b0 b1 : Byte) (s : State), s.busy = false →
    exec (.sampleLuma fmt b0 b1) s = .next { s with result := BitVec.ofNat 32 (lumaOf fmt b0 b1) } ∧
      lumaOf fmt b0 b1 ≤ 255

/-- CONVERT_AREA while no tile runs, with arguments that pass R141: it latches its operands, allocates or falls back,
zeroes the cells of the tile, sets BUSY, and changes nothing else (R140, R142 to R144). The cleared srcChanged is the
model's field (assumption 6). -/
def Obligations.ConvertAreaAcceptsTile : Prop :=
  ∀ (fmt : Format) (bpp : BitVec 3) (s : State), s.busy = false →
    argCode (decide (fmt = .rgb565)) bpp.toNat s = none →
    ∀ need, need = argW s + padOf s.mode →
    ∃ (acc : AccFile) (u : State),
      ((s.mode = .disabled ∨ s.mode = .ordered → u = { s with algo := s.mode }) ∧
       (s.mode = .ed2 ∨ s.mode = .ed3 →
        (s.accRows.toNat = rowsOf s.mode ∧ need ≤ s.accWidth.toNat → u = { s with algo := s.mode }) ∧
        (¬(s.accRows.toNat = rowsOf s.mode ∧ need ≤ s.accWidth.toNat) → need ≤ s.cfg.accRowCells →
          u = { s with
            algo := s.mode
            accRows := BitVec.ofNat 2 (rowsOf s.mode)
            accWidth := BitVec.ofNat 16 need }) ∧
        (¬(s.accRows.toNat = rowsOf s.mode ∧ need ≤ s.accWidth.toNat) → s.cfg.accRowCells < need →
          u = { s with
            algo := .disabled
            accRows := 0
            accWidth := 0
            fallbackCount := s.fallbackCount + 1
            intStatus := s.intStatus ||| 0b10000 }))) ∧
      exec (.convertArea fmt bpp) s =
        .next { u with
          lx := BitVec.ofNat 16 (argX s)
          ly := BitVec.ofNat 16 (argY s)
          lw := BitVec.ofNat 16 (argW s)
          lh := BitVec.ofNat 16 (argH s)
          lsrc := s.srcAddr
          lfmt := fmt
          lbpp := bpp
          curR := 0
          curC := 0
          acc := acc
          srcChanged := []
          busy := true } ∧
      (∀ j i, j < 3 →
        acc.cell j i = if j < rowsOf u.algo ∧ i < argW s + padOf u.algo then 0 else s.acc.cell j i) ∧
      (acc.row0.length = s.acc.row0.length ∧ acc.row1.length = s.acc.row1.length ∧
        acc.row2.length = s.acc.row2.length)

/-! ## The step, reset and the bus -/

/-- A write of a command word to CMD answers OKAY and issues the word; a word that decodes runs its instruction
(R24, R96). The write is the next entry of the schedule, or the next transfer of the host's program (R97); both are the
model's form (assumptions 1 and 2). -/
def Obligations.StepRunsDecodedCommand : Prop :=
  ∀ (s : State) (w : Word) (rest : List Event), s.resetHeld = false →
    (s.schedule = cmdWrite w :: rest →
      step s = issueCommand w (replied .okay none { s with schedule := rest }) ∧
      ∀ i, decode w = .ok i → step s = exec i (replied .okay none { s with schedule := rest })) ∧
    (∀ prog, s.schedule = .hostStep :: rest → s.program = .write 0x010 w :: prog →
      step s = issueCommand w (replied .okay none { s with schedule := rest, program := prog }) ∧
      ∀ i, decode w = .ok i → step s = exec i (replied .okay none { s with schedule := rest, program := prog }))

/-- While reset is held the block answers no transfer and no agent of the block moves (R265). The held level
and its two events are the model's form (assumption 11). -/
def Obligations.HeldResetStopsTheBlock : Prop :=
  ∀ (s : State) (e : Event) (rest : List Event), s.schedule = e :: rest → s.resetHeld = true →
    (∀ off size, e = .busRead off size → step s = .next { s with schedule := rest, busReply := none }) ∧
    (∀ off size d, e = .busWrite off size d → step s = .next { s with schedule := rest, busReply := none }) ∧
    (e = .hostStep → s.program ≠ [] → step s = .next { s with schedule := rest, busReply := none }) ∧
    (e = .tileStep ∨ e = .schedStep ∨ e = .tick ∨ (∃ ms, e = .elapse ms) ∨ (∃ a, e = .panelAnswer a) →
      step s = .next { s with schedule := rest }) ∧
    (e = .resetRelease → step s = .next { s with schedule := rest, resetHeld := false })

/-- Asserting reset, in any state, puts every piece of state for which R52 gives a value at that value; the parameters
are hardwired. -/
def Obligations.AssertedResetSetsEveryRegister : Prop :=
  ∀ s : State, ∃ t, handle .resetAssert s = .next t ∧
    t.cfg = s.cfg ∧ t.result = 0 ∧ t.tileOrigin = 0 ∧ t.tileSize = 0 ∧ t.srcAddr = 0 ∧
    t.mode = .disabled ∧ t.lastMode = .ordered ∧ t.busy = false ∧ t.dirty = false ∧
    t.schedState = .idle ∧ t.schedPhase = .none ∧ t.plane = 0 ∧ t.outstanding = none ∧
    t.errCode = 0 ∧ t.errOverflow = false ∧ t.intStatus = 0 ∧ t.intEnable = 0 ∧ t.threshold = 0 ∧
    t.partialCount = 0 ∧ t.accRows = 0 ∧ t.accWidth = 0 ∧ t.fallbackCount = 0 ∧ t.panelFailCount = 0 ∧
    t.lastFailOp = 0 ∧ t.lastFailPlane = 0 ∧ (∀ i, rasterRead t i = 0) ∧ irq t = false

/-- What the registers read right after reset, with the default parameters (R7, R21 to R39, R52). -/
def Obligations.ResetRegistersRead : Prop :=
  regRead State.reset .id = 0x45505037 ∧ regRead State.reset .geometry = 0x00C800C8 ∧
  regRead State.reset .caps = 0x000100CC ∧ regRead State.reset .mode = 0x00000004 ∧
  (∀ r, r ∉ [Reg.id, Reg.geometry, Reg.caps, Reg.mode] → regRead State.reset r = 0) ∧
  ∀ i, rasterRead State.reset i = 0

/-- A bus read changes nothing but its own response (R65, R75). -/
def Obligations.BusReadsChangeNothing : Prop :=
  ∀ (off : Offset) (size : Nat) (s : State), s.resetHeld = false →
    ∃ r, handle (.busRead off size) s = .next { s with busReply := some r }

/-- A transfer of another size or at a misaligned offset answers SLVERR and has no effect (R61, R62). -/
def Obligations.IllegalTransferAnswersSlverr : Prop :=
  ∀ (off : Offset) (size : Nat) (d : Word) (s : State), size ≠ 32 ∨ off.toNat % 4 ≠ 0 →
    agentStep (.busRead off size) s = .next (replied .slverr (some 0) s) ∧
    agentStep (.busWrite off size d) s = .next (replied .slverr none s)

/-- A transfer to an offset that names no register and lies outside the RASTER window answers SLVERR, with no effect
(R64). -/
def Obligations.ReservedOffsetAnswersSlverr : Prop :=
  ∀ (off : Offset) (d : Word) (s : State), off.toNat ∉ registerOffsets → ¬InWindow s.cfg off.toNat →
    agentStep (.busRead off 32) s = .next (replied .slverr (some 0) s) ∧
    agentStep (.busWrite off 32 d) s = .next (replied .slverr none s)

/-- A write to a read-only register or into the RASTER window answers SLVERR and changes nothing; a write to ERR is no
such write (R63). -/
def Obligations.ReadOnlyWriteAnswersSlverr : Prop :=
  ∀ (off : Offset) (d : Word) (s : State), off.toNat % 4 = 0 →
    (off.toNat ∈ readOnlyOffsets ∨ InWindow s.cfg off.toNat →
      agentStep (.busWrite off 32 d) s = .next (replied .slverr none s)) ∧
    (off.toNat = 0x02C → ∃ t, agentStep (.busWrite off 32 d) s = .next t ∧ t.busReply = some ⟨.okay, none⟩)

/-- What every register reads, field by field, and that the read changes nothing (R21 to R39). -/
def Obligations.RegistersReadTheirFields : Prop :=
  ∀ s : State, s.cfg.Legal →
    Reads s 0x000 s.cfg.idValue.toNat ∧
    Reads s 0x004 (s.cfg.screenW + 65536 * s.cfg.screenH) ∧
    Reads s 0x008 (s.cfg.accRowCells + 65536 * s.cfg.panelPlanes) ∧
    Reads s 0x010 0 ∧
    Reads s 0x014 s.result.toNat ∧
    Reads s 0x018 s.tileOrigin.toNat ∧
    Reads s 0x01C s.tileSize.toNat ∧
    Reads s 0x020 s.srcAddr.toNat ∧
    Reads s 0x024 (modeNumber s.mode + 4 * modeNumber s.lastMode + 16 * (if s.mode = .disabled then 0 else 1)) ∧
    Reads s 0x028
      (bit s.busy + 2 * (if s.schedState = .idle then 0 else 1) + 4 * phaseNumber s.schedPhase +
        32 * bit s.dirty + 64 * (if s.errCode = 0 then 0 else 1) +
        128 * (if s.schedPhase = .draw then s.plane.toNat else 0)) ∧
    Reads s 0x02C (s.errCode.toNat + 16 * bit s.errOverflow) ∧
    Reads s 0x030 s.intStatus.toNat ∧
    Reads s 0x034 s.intEnable.toNat ∧
    Reads s 0x038 s.threshold.toNat ∧
    Reads s 0x03C s.partialCount.toNat ∧
    Reads s 0x040 (s.accWidth.toNat + 65536 * s.accRows.toNat) ∧
    Reads s 0x044 s.fallbackCount.toNat ∧
    Reads s 0x048 s.panelFailCount.toNat ∧
    Reads s 0x04C (s.lastFailOp.toNat + 8 * s.lastFailPlane.toNat)

/-- A word of the RASTER window packs four raster bytes, byte 4k lowest, with 0 past the raster (R72, R73). -/
def Obligations.RasterWindowReadsFourBytes : Prop :=
  ∀ (s : State) (k : Nat), s.cfg.rasterBytes ≤ 0xFF000 → InWindow s.cfg (0x01000 + 4 * k) →
    Reads s (BitVec.ofNat 20 (0x01000 + 4 * k))
      (shownByte s (4 * k) + 256 * shownByte s (4 * k + 1) + 65536 * shownByte s (4 * k + 2) +
        16777216 * shownByte s (4 * k + 3))

/-- What a write to each writable register does, and that nothing else changes: TILE_ORIGIN, TILE_SIZE, SRC_ADDR, ERR,
INT_STATUS, INT_ENABLE and THRESHOLD (R26 to R28, R31 to R34, R40). -/
def Obligations.RegisterWritesTakeEffect : Prop :=
  ∀ (v : Word) (s : State),
    agentStep (.busWrite 0x018 32 v) s = .next (replied .okay none { s with tileOrigin := v }) ∧
    agentStep (.busWrite 0x01C 32 v) s = .next (replied .okay none { s with tileSize := v }) ∧
    agentStep (.busWrite 0x020 32 v) s = .next (replied .okay none { s with srcAddr := v }) ∧
    agentStep (.busWrite 0x02C 32 v) s = .next (replied .okay none { s with errCode := 0, errOverflow := false }) ∧
    (∃ w, agentStep (.busWrite 0x030 32 v) s = .next (replied .okay none { s with intStatus := w }) ∧
      ∀ b, b < 5 → w.getLsbD b = (s.intStatus.getLsbD b && !v.getLsbD b)) ∧
    (∃ w, agentStep (.busWrite 0x034 32 v) s = .next (replied .okay none { s with intEnable := w }) ∧
      ∀ b, b < 5 → w.getLsbD b = v.getLsbD b) ∧
    agentStep (.busWrite 0x038 32 v) s =
      .next (replied .okay none { s with threshold := BitVec.ofNat 16 (v.toNat % 65536), partialCount := 0 })

/-- The interrupt line is high exactly while an enabled cause bit is set (R248). -/
def Obligations.InterruptLineFollowsEnabledCauses : Prop :=
  ∀ s : State, irq s = true ↔ ∃ b, b < 5 ∧ s.intStatus.getLsbD b = true ∧ s.intEnable.getLsbD b = true

/-! ## Memories -/

/-- A raster byte written reads back, and every other byte reads as before (R70). -/
def Obligations.RasterReadsBackWrites : Prop :=
  ∀ (s : State) (i : Nat) (v : Byte), Memory.wf rasterUnlisted s.cfg.rasterBytes s.raster →
    ∀ j, rasterRead (rasterWrite i v s) j = if j = i then v else rasterRead s j

/-- PixelWrite sets or clears exactly bit 7 - x mod 8 of byte y·BPR + x div 8 and changes nothing else (R180, R181).
-/
def Obligations.PixelWriteSetsOneBit : Prop :=
  ∀ (x y : Nat) (dark : Bool) (s : State), Memory.wf rasterUnlisted s.cfg.rasterBytes s.raster →
    ∃ m, pixelWrite x y dark s = { s with raster := m } ∧
      ∀ i b, b < 8 →
        rasterBit { s with raster := m } i b =
          if i = y * ((s.cfg.screenW + 7) / 8) + x / 8 ∧ b = 7 - x % 8 then dark else rasterBit s i b

/-- A source byte the host sets while no tile runs reads back, and every other byte as before (R67, R85).
That an unset byte reads the same each time and the srcChanged field are the model's form (assumptions 5 and 6). -/
def Obligations.SourceReadsWhatHostLeft : Prop :=
  ∀ (s : State) (a : Word) (b : Byte), Memory.wf sourceUnlisted (2 ^ 32) s.src → s.busy = false → s.srcChanged = [] →
    ∀ k : Nat,
      srcRead k (srcWrite a b s) = (if k = a.toNat then b else (srcRead k s).1, srcWrite a b s)

/-! ## The tile engine (41_dither_engine.md, 42_raster_compositor.md) -/

/-- The completion step sets DIRTY and TILE_DONE and clears BUSY, at once (R145, R185). That the latches, the cursor and
the accumulators keep their values after it is the model's choice (assumption 9). -/
def Obligations.CompletionStepEndsTile : Prop :=
  ∀ s : State, s.busy = true → s.lw = 0 ∨ s.lh.toNat ≤ s.curR →
    agentStep .tileStep s =
      .next { s with dirty := true, busy := false, intStatus := s.intStatus ||| 0b00001 }

/-- A pixel step writes one raster bit, moves the cursor in raster order, and changes nothing else but the
accumulators and the model's counter of free values (R150, R181). The bit is the tile's algorithm's decision on the
pixel's luma, which the source memory fixes unless the host changed a byte this pixel reads (R67, R69, R85); RowStart
follows the last pixel of a row that is not the tile's last (R161, R162, R167). The counter and the list of changed bytes
are the model's (assumption 6). -/
def Obligations.PixelStepWritesCursorPixel : Prop :=
  ∀ s : State, MachineInv s → s.busy = true → s.lw ≠ 0 → s.curR < s.lh.toNat →
    ∃ (m : Memory) (f g : AccFile) (n : Nat) (dark : Bool) (l : Byte),
      agentStep .tileStep s =
        .next { s with
          raster := m
          acc := f
          freeCount := n
          curC := if s.curC + 1 = s.lw.toNat then 0 else s.curC + 1
          curR := if s.curC + 1 = s.lw.toNat then s.curR + 1 else s.curR } ∧
      (∀ i b, b < 8 →
        rasterBit { s with raster := m } i b =
          if i = (s.ly.toNat + s.curR) * ((s.cfg.screenW + 7) / 8) + (s.lx.toNat + s.curC) / 8 ∧
              b = 7 - (s.lx.toNat + s.curC) % 8 then dark
          else rasterBit s i b) ∧
      (pixelAddress s ∉ s.srcChanged → (s.lfmt = .rgb565 → pixelAddress s + 1 ∉ s.srcChanged) →
        l.toNat = tileLuma s s.curR s.curC) ∧
      (s.algo = .disabled → dark = decide (l.toNat < 128) ∧ f = s.acc) ∧
      (s.algo = .ordered →
        dark = decide (l.toNat <
          s.cfg.bayer.getD (8 * ((s.ly.toNat + s.curR) % 8) + (s.lx.toNat + s.curC) % 8) 0 * 4 + 2) ∧
        f = s.acc) ∧
      (s.algo = .ed2 ∨ s.algo = .ed3 →
        ditherPixel s.algo s.cfg l (s.lx.toNat + s.curC) (s.ly.toNat + s.curR) s.curR s.curC s.acc = (dark, g) ∧
        f = if s.curC + 1 = s.lw.toNat ∧ s.curR + 1 < s.lh.toNat then
              rowStart s.algo s.lw.toNat (s.curR + 1) g
            else g)

/-- A tile of LW × LH pixels completes after exactly LW·LH pixel steps and one completion step (R278). -/
def Obligations.TileCompletesAfterItsPixelSteps : Prop :=
  ∀ s : State, MachineInv s → AtTileStart s →
    (∀ n, n ≤ s.lw.toNat * s.lh.toNat → ∃ u, tileRun n s = .next u ∧ u.busy = true) ∧
    ∃ t, tileRun (s.lw.toNat * s.lh.toNat + 1) s = .next t ∧ t.busy = false ∧ t.dirty = true ∧
      t.intStatus.getLsbD 0 = true

/-- However many steps a tile has run, every raster bit outside its latched rectangle keeps its value (R182). -/
def Obligations.TileLeavesRestOfRasterAlone : Prop :=
  ∀ (s t : State) (n : Nat), MachineInv s → s.busy = true → tileRun n s = .next t →
    ∀ i b, b < 8 →
      (¬∃ x y, s.lx.toNat ≤ x ∧ x < s.lx.toNat + s.lw.toNat ∧ s.ly.toNat ≤ y ∧ y < s.ly.toNat + s.lh.toNat ∧
        IsPixel s.cfg i b x y) →
      rasterBit t i b = rasterBit s i b

/-- The image of a whole DISABLED or ORDERED tile: each pixel is the threshold decision on its own luma, by absolute
raster coordinates for ORDERED (R13, R150, R161, R162). -/
def Obligations.StatelessTileThresholdsEveryPixel : Prop :=
  ∀ s t : State, MachineInv s → AtTileStart s → s.algo = .disabled ∨ s.algo = .ordered →
    tileRun (s.lw.toNat * s.lh.toNat + 1) s = .next t →
    ∀ r c, r < s.lh.toNat → c < s.lw.toNat →
      rasterPixel t (s.lx.toNat + c) (s.ly.toNat + r) =
        decide (tileLuma s r c <
          if s.algo = .disabled then 128
          else s.cfg.bayer.getD (8 * ((s.ly.toNat + r) % 8) + (s.lx.toNat + c) % 8) 0 * 4 + 2)

/-- An all-white or all-black tile under error diffusion gives all light or all dark, with zero residual error
(R171). -/
def Obligations.SaturatedTileLeavesNoError : Prop :=
  ∀ (s t : State) (v : Nat), v = 0 ∨ v = 255 → MachineInv s → AtTileStart s → CellsZero s →
    s.algo = .ed2 ∨ s.algo = .ed3 →
    (∀ r c, r < s.lh.toNat → c < s.lw.toNat → tileLuma s r c = v) →
    tileRun (s.lw.toNat * s.lh.toNat + 1) s = .next t →
    (∀ r c, r < s.lh.toNat → c < s.lw.toNat →
      rasterPixel t (s.lx.toNat + c) (s.ly.toNat + r) = decide (v = 0)) ∧
    CellsZero t

/-- Every accumulator cell a tile uses lies in -128 .. 128 at every step (R169). -/
def Obligations.AccumulatorCellsStayBounded : Prop :=
  ∀ (s t : State) (n : Nat), MachineInv s → AtTileStart s → CellsZero s → s.algo = .ed2 ∨ s.algo = .ed3 →
    tileRun n s = .next t →
    ∀ j i, j < rowsOf s.algo → i < s.lw.toNat + padOf s.algo →
      -128 ≤ t.acc.cell j i ∧ t.acc.cell j i ≤ 128

/-- The corrected luma, the decision and the error of a pixel, with the error in -127 .. 127 (R163). -/
def Obligations.QuantisationErrorIsBounded : Prop :=
  ∀ (l : Byte) (e : Int),
    correctedLuma l e = correctedOf l e ∧ quantDark (correctedLuma l e) = decide (correctedOf l e < 128) ∧
      quantError (correctedLuma l e) = errOf l e ∧ -127 ≤ errOf l e ∧ errOf l e ≤ 127

/-- One Floyd-Steinberg pixel: its decision, and every cell of the three rows after it (R163, R164, R166, R168). -/
def Obligations.FloydSteinbergSpreadsError : Prop :=
  ∀ (p : Params) (l : Byte) (x y r c : Nat) (f : AccFile),
    c + 2 < f.row0.length → c + 2 < f.row1.length →
    ∀ e, e = f.cell (r % 2) (c + 1) →
      (ditherPixel .ed2 p l x y r c f).1 = decide (correctedOf l e < 128) ∧
      ∀ j i, j < 3 →
        (ditherPixel .ed2 p l x y r c f).2.cell j i =
          if j < 2 then wrap (f.cell j i + errOf l e * fsWeight ((j + 2 - r % 2) % 2) ((i : Int) - c) / 16)
          else f.cell j i

/-- One Stucki pixel: its decision, and every cell of the three rows after it (R163, R165, R166, R168). -/
def Obligations.StuckiSpreadsError : Prop :=
  ∀ (p : Params) (l : Byte) (x y r c : Nat) (f : AccFile),
    c + 4 < f.row0.length → c + 4 < f.row1.length → c + 4 < f.row2.length →
    ∀ e, e = f.cell (r % 3) (c + 2) →
      (ditherPixel .ed3 p l x y r c f).1 = decide (correctedOf l e < 128) ∧
      ∀ j i, j < 3 →
        (ditherPixel .ed3 p l x y r c f).2.cell j i =
          wrap (f.cell j i + errOf l e * stuckiWeight ((j + 3 - r % 3) % 3) ((i : Int) - c - 2) / 64)

/-- RowStart zeroes the row that enters the ring as its farthest, over the tile's cells, and no other cell (R167). -/
def Obligations.RowStartZeroesFarthestRow : Prop :=
  ∀ (a : DitherMode) (w r : Nat) (f : AccFile), a = .ed2 ∨ a = .ed3 → 1 ≤ r →
    ∀ j i, j < 3 →
      (rowStart a w r f).cell j i =
        if j = (r + rowsOf a - 1) % rowsOf a ∧ i < w + padOf a then 0 else f.cell j i

/-! ## The refresh scheduler (43_refresh_scheduler.md) -/

/-- A tick in IDLE with DIRTY set starts a cycle: DIRTY stays, POWER_ON is issued (R203). The timer's own time starts
again, which is the model's timer (R47, assumption 13), and the request is recorded (R207). -/
def Obligations.DirtyTickStartsCycle : Prop :=
  ∀ s : State, s.schedState = .idle → s.dirty = true →
    agentStep .tick s =
      .next { s with
        schedState := .refreshInProgress
        schedPhase := .powerOn
        plane := 0
        outstanding := some .powerOn
        panelLog := s.panelLog ++ [.powerOn]
        pollElapsed := 0 }

/-- Any other tick changes nothing but the timer's own time since the last tick (R47, R202, R204), which is the
model's field (assumption 13). -/
def Obligations.OtherTickChangesNothing : Prop :=
  ∀ s : State, s.schedState = .refreshInProgress ∨ s.dirty = false →
    agentStep .tick s = .next { s with pollElapsed := 0 }

/-- POWER_ON answered OK: the counter decides the refresh mode (R205). -/
def Obligations.PowerOnOkDecidesMode : Prop :=
  ∀ s : State, s.outstanding = some .powerOn →
    (s.partialCount.toNat < s.threshold.toNat →
      ∃ n : BitVec 16, n.toNat = s.partialCount.toNat + 1 ∧
        agentStep (.panelAnswer .ok) s =
          .next { s with
            partialCount := n
            lut := .partialLut
            schedPhase := .selectLut
            outstanding := some .selectLut
            panelLog := s.panelLog ++ [.selectLut .partialLut] }) ∧
    (s.threshold.toNat ≤ s.partialCount.toNat →
      agentStep (.panelAnswer .ok) s =
        .next { s with
          partialCount := 0
          lut := .fullLut
          schedPhase := .selectLut
          outstanding := some .selectLut
          panelLog := s.panelLog ++ [.selectLut .fullLut] })

/-- SELECT_LUT answered OK starts the first draw pass (R206, R208). -/
def Obligations.SelectLutOkStartsDraw : Prop :=
  ∀ s : State, s.outstanding = some .selectLut →
    agentStep (.panelAnswer .ok) s =
      .next { s with schedPhase := .draw, plane := 0, drawIndex := 0, drawBuf := [], outstanding := none }

/-- A scheduler step of a draw pass reads the next raster byte, and the step that reads the last one issues DRAW with
all of them (R208). That the last read issues DRAW in its own step is the model's reading (assumption 10). -/
def Obligations.DrawStepReadsNextByte : Prop :=
  ∀ s : State, s.schedPhase = .draw → s.outstanding = none →
    (s.drawIndex + 1 < s.cfg.rasterBytes →
      agentStep .schedStep s =
        .next { s with drawIndex := s.drawIndex + 1, drawBuf := s.drawBuf ++ [rasterRead s s.drawIndex] }) ∧
    (s.drawIndex + 1 = s.cfg.rasterBytes →
      agentStep .schedStep s =
        .next { s with
          drawIndex := s.drawIndex + 1
          drawBuf := s.drawBuf ++ [rasterRead s s.drawIndex]
          outstanding := some .draw
          panelLog := s.panelLog ++ [.draw s.plane (s.drawBuf ++ [rasterRead s s.drawIndex])] })

/-- DRAW answered OK: a further plane gets a fresh pass, and after the last one REFRESH is issued (R209). -/
def Obligations.DrawOkGoesToNextPlane : Prop :=
  ∀ s : State, s.outstanding = some .draw →
    (s.plane.toNat + 1 < s.cfg.panelPlanes →
      agentStep (.panelAnswer .ok) s =
        .next { s with plane := s.plane + 1, drawIndex := 0, drawBuf := [], outstanding := none }) ∧
    (s.cfg.panelPlanes ≤ s.plane.toNat + 1 →
      agentStep (.panelAnswer .ok) s =
        .next { s with
          plane := 0
          schedPhase := .refresh
          outstanding := some .refresh
          panelLog := s.panelLog ++ [.refresh] })

/-- REFRESH answered OK issues POWER_OFF (R210). -/
def Obligations.RefreshOkPowersOff : Prop :=
  ∀ s : State, s.outstanding = some .refresh →
    agentStep (.panelAnswer .ok) s =
      .next { s with
        schedPhase := .powerOff
        outstanding := some .powerOff
        panelLog := s.panelLog ++ [.powerOff] }

/-- POWER_OFF answered OK clears DIRTY, whatever set it, and returns to IDLE (R211, R212). That LUT, the draw index and
the draw buffer keep their values in IDLE is the model's choice (assumption 9). -/
def Obligations.PowerOffOkCompletesCycle : Prop :=
  ∀ s : State, s.outstanding = some .powerOff →
    agentStep (.panelAnswer .ok) s =
      .next { s with
        dirty := false
        schedState := .idle
        schedPhase := .none
        plane := 0
        intStatus := s.intStatus ||| 0b00100
        outstanding := none }

/-- A request answered FAIL aborts the cycle: it is counted and recorded, DIRTY and the counter stay, and nothing more
is issued (R213). That LUT, the draw index and the draw buffer keep their values in IDLE is the model's choice
(assumption 9). -/
def Obligations.PanelFailAbortsCycle : Prop :=
  ∀ (s : State) (op : PanelOp), s.outstanding = some op →
    agentStep (.panelAnswer .fail) s =
      .next { s with
        panelFailCount := s.panelFailCount + 1
        lastFailOp :=
          (match op with
            | .powerOn => 1
            | .selectLut => 2
            | .draw => 3
            | .refresh => 4
            | .powerOff => 5)
        lastFailPlane := if op = .draw then s.plane else 0
        intStatus := s.intStatus ||| 0b01000
        schedState := .idle
        schedPhase := .none
        plane := 0
        outstanding := none }

/-- One clean cycle of a one-plane panel, with no tile step in between, issues the five requests in order, sends the
whole raster, and ends in IDLE with DIRTY clear and the raster as it was (R203 to R212). That the step which reads the
last byte issues DRAW is the model's reading (assumption 10). -/
def Obligations.CleanCycleSendsWholeRaster : Prop :=
  ∀ s : State, MachineInv s → s.resetHeld = false → s.schedState = .idle → s.dirty = true → s.cfg.panelPlanes = 1 →
    ∃ t, runEvents
        ([.tick, .panelAnswer .ok, .panelAnswer .ok] ++ List.replicate s.cfg.rasterBytes .schedStep ++
          [.panelAnswer .ok, .panelAnswer .ok, .panelAnswer .ok]) s = .next t ∧
      t.panelLog = s.panelLog ++
        [.powerOn, .selectLut (if s.partialCount.toNat < s.threshold.toNat then .partialLut else .fullLut),
          .draw 0 ((List.range s.cfg.rasterBytes).map (rasterRead s)), .refresh, .powerOff] ∧
      t.dirty = false ∧ t.schedState = .idle ∧ t.schedPhase = .none ∧ t.outstanding = none ∧ t.raster = s.raster ∧
      t.partialCount.toNat =
        (if s.partialCount.toNat < s.threshold.toNat then s.partialCount.toNat + 1 else 0) ∧
      t.intStatus = s.intStatus ||| 0b00100

/-- From PARTIAL_COUNT = 0 the successive decisions count up to THRESHOLD and then select FULL and start again, with
period THRESHOLD + 1 (R205, R215). -/
def Obligations.DecisionsCountWithPeriod : Prop :=
  ∀ (s : State) (n : Nat), s.partialCount = 0 →
    (decideMode^[n] s).partialCount.toNat = n % (s.threshold.toNat + 1) ∧
    ((decideMode^[n + 1] s).lut = .fullLut ↔ n % (s.threshold.toNat + 1) = s.threshold.toNat)

/-- The scheduler, the panel and the poll timer write only the scheduler's own fields, DIRTY (to clear it),
PARTIAL_COUNT, the panel failure registers and INT_STATUS bits 2 and 3; never the raster (R217). -/
def Obligations.SchedulerWritesOnlyItsOwn : Prop :=
  ∀ (s t : State) (e : Event), e = .tick ∨ e = .schedStep ∨ (∃ a, e = .panelAnswer a) → agentStep e s = .next t →
    t = { s with
      schedState := t.schedState
      schedPhase := t.schedPhase
      plane := t.plane
      lut := t.lut
      drawIndex := t.drawIndex
      drawBuf := t.drawBuf
      outstanding := t.outstanding
      panelLog := t.panelLog
      pollElapsed := t.pollElapsed
      dirty := t.dirty
      partialCount := t.partialCount
      panelFailCount := t.panelFailCount
      lastFailOp := t.lastFailOp
      lastFailPlane := t.lastFailPlane
      intStatus := t.intStatus } ∧
    (t.dirty = true → s.dirty = true) ∧
    (∀ b, b = 0 ∨ b = 1 ∨ b = 4 → t.intStatus.getLsbD b = s.intStatus.getLsbD b)

/-! ## The whole machine -/

/-- Every step keeps the invariant (R36, R44 to R46, R48, R51, R70). -/
def Obligations.EveryStepKeepsTheInvariant : Prop :=
  ∀ s t : State, MachineInv s → step s = .next t → MachineInv t

/-- The state right after reset meets the invariant. The values of the hidden fields are the model's (assumptions 7
and 8). -/
def Obligations.ResetMeetsTheInvariant : Prop := MachineInv State.reset

/-- From a state that meets the invariant no step stops: every agent's step, every transfer and every command word has
a next state (R14). -/
def Obligations.InvariantStepsNeverStop : Prop := ∀ s : State, MachineInv s → Completes (step s)

/-- The padding bits of the raster rows stay 0 (R71). -/
def Obligations.EveryStepKeepsPaddingLight : Prop :=
  ∀ s t : State, MachineInv s → PaddingLight s → step s = .next t → PaddingLight t

/-- While a tile keeps running, no event changes the mode, the allocation or what the tile latched (R44, R146, R271).
-/
def Obligations.RunningTileIsNotDisturbed : Prop :=
  ∀ (s t : State) (e : Event), s.busy = true → handle e s = .next t → t.busy = true →
    t.mode = s.mode ∧ t.lastMode = s.lastMode ∧ t.accRows = s.accRows ∧ t.accWidth = s.accWidth ∧
    t.lx = s.lx ∧ t.ly = s.ly ∧ t.lw = s.lw ∧ t.lh = s.lh ∧ t.lsrc = s.lsrc ∧ t.lfmt = s.lfmt ∧ t.lbpp = s.lbpp ∧
    t.algo = s.algo

/-- DIRTY is set only by a tile engine's step and cleared only by the panel's answer that completes a cycle, or by
reset; no bus write changes it (R43, R49). -/
def Obligations.DirtyChangesOnlyByTileAndCycle : Prop :=
  ∀ (s t : State) (e : Event), handle e s = .next t → t.dirty ≠ s.dirty →
    (e = .tileStep ∧ t.dirty = true) ∨
    (e = .panelAnswer .ok ∧ s.outstanding = some .powerOff ∧ t.dirty = false) ∨
    (e = .resetAssert ∧ t.dirty = false)

/-- RESULT changes only by GET_MODE, IS_ENABLED and SAMPLE_LUMA, and MODE and LAST_MODE only by SET_MODE and
SET_ENABLED, all of them while no tile runs, or by reset (R25, R29). -/
def Obligations.ResultAndModeHaveFewWriters : Prop :=
  ∀ (s t : State) (e : Event), handle e s = .next t → e ≠ .resetAssert →
    (t.result ≠ s.result → ∃ w i, WritesCommand e s w ∧ s.busy = false ∧ decode w = .ok i ∧
      (i = .getMode ∨ i = .isEnabled ∨ ∃ fmt b0 b1, i = .sampleLuma fmt b0 b1)) ∧
    (t.mode ≠ s.mode ∨ t.lastMode ≠ s.lastMode → ∃ w i, WritesCommand e s w ∧ s.busy = false ∧ decode w = .ok i ∧
      ((∃ m, i = .setMode m) ∨ ∃ b, i = .setEnabled b))

/-- The pseudo-instruction `tile` writes its five operands to the three argument registers in three host steps, and
changes nothing else but the bus response; operands that do not fit are refused. A host step of `wait_idle` reads STATUS,
and the program goes on past the loop exactly if the value read has BUSY = 0 (R99). That the host's program is a field of
the state is the model's form (assumptions 1 and 18). -/
def Obligations.TileAndWaitIdleTakeEffect : Prop :=
  ∀ s : State, s.resetHeld = false →
    (∀ x y w h src : Nat,
      (x < 65536 → y < 65536 → w < 65536 → h < 65536 → src < 2 ^ 32 →
        ∃ ops o z a, Machine.expand (.tile x y w h src) = some ops ∧
          (∀ rest, runEvents (List.replicate ops.length .hostStep) { s with program := ops ++ rest } =
            .next (replied .okay none
              { s with program := rest, tileOrigin := o, tileSize := z, srcAddr := a })) ∧
          o.toNat = y * 65536 + x ∧ z.toNat = h * 65536 + w ∧ a.toNat = src) ∧
      (65536 ≤ x ∨ 65536 ≤ y ∨ 65536 ≤ w ∨ 65536 ≤ h ∨ 2 ^ 32 ≤ src →
        Machine.expand (.tile x y w h src) = none)) ∧
    Machine.expand .waitIdle = some [.waitIdle] ∧
    (∀ rest, s.program = .waitIdle :: rest →
      handle .hostStep s =
        .next (replied .okay (some (regRead s .status)) (if s.busy = true then s else { s with program := rest })) ∧
      (regRead s .status).getLsbD 0 = s.busy)

/-- In a weakly fair run, `wait_idle` ends, at a read that finds BUSY = 0, where the host writes to the bus by its
program alone and no reset comes; and every refresh cycle ends in IDLE (R278). The run starts in a state that meets the
invariant, with reset released. Fairness is a premise on runs (assumption 14). -/
def Obligations.FairRunsEndWaitsAndCycles : Prop :=
  ∀ (σ : Nat → State) (ev : Nat → Event), IsRun σ ev → WeaklyFair σ ev → MachineInv (σ 0) → (σ 0).resetHeld = false →
    (∀ rest, (σ 0).program = .waitIdle :: rest →
      (∀ n, ev n ≠ .resetAssert ∧ ∀ off size d, ev n ≠ .busWrite off size d) →
      ∃ n, ev n = .hostStep ∧ (σ n).busy = false ∧ (σ n).program = .waitIdle :: rest ∧ (σ (n + 1)).program = rest) ∧
    ((σ 0).schedState = .refreshInProgress → ∃ n, (σ n).schedState = .idle)
end

