-- ==== Sys2Proof/Laws/Memory.lean ====
section
/-! SUPPORT. The laws of a byte memory: a read after a write, every other address unchanged, and the canonical form
kept by every operation (20_memory.md R70). -/

namespace Sys2Proof.Machine

theorem Memory.lookup_insert (m : Memory) (k j : Nat) (v : Byte)
    (h : List.Pairwise (fun x y : Host.Cell => x.1 < y.1) m) :
    Memory.lookup (Memory.insert m k v) j = if k = j then some v else Memory.lookup m j := by
  induction m with
  | nil => simp [Memory.insert, Memory.lookup]
  | cons x m ih =>
    obtain ⟨a, b⟩ := x
    rw [List.pairwise_cons] at h
    have := ih h.2
    simp only [Memory.insert]
    split_ifs <;> simp_all [Memory.lookup]
    grind

theorem Memory.lookup_none_of_lt (m : Memory) (k : Nat) (h : ∀ x ∈ m, k < x.1) : Memory.lookup m k = none := by
  induction m with
  | nil => rfl
  | cons x m ih =>
    have hx := h x (by simp)
    simp only [Memory.lookup, ih fun y hy => h y (by simp [hy])]
    split_ifs with he
    · omega
    · rfl

theorem Memory.lookup_erase (m : Memory) (k j : Nat) (h : List.Pairwise (fun x y : Host.Cell => x.1 < y.1) m) :
    Memory.lookup (Memory.erase m k) j = if k = j then none else Memory.lookup m j := by
  induction m with
  | nil => simp [Memory.erase, Memory.lookup]
  | cons x m ih =>
    obtain ⟨a, b⟩ := x
    rw [List.pairwise_cons] at h
    have := ih h.2
    have hk := Memory.lookup_none_of_lt m a fun y hy => h.1 y hy
    simp only [Memory.erase]
    split_ifs <;> simp_all [Memory.lookup]

/-- A read of the address written gives the value written. -/
theorem Memory.read_write_same (d : Option Byte) (bound : Nat) (m : Memory) (k : Nat) (v : Byte)
    (h : Memory.wf d bound m) : Memory.read d (Memory.write d m k v) k = some v := by
  unfold Memory.read Memory.write
  split_ifs with hd
  · simp [Memory.lookup_erase m k k h.1, hd]
  · simp [Memory.lookup_insert m k k v h.1]

/-- Every other address reads as before. -/
theorem Memory.read_write_other (d : Option Byte) (bound : Nat) (m : Memory) (k j : Nat) (v : Byte)
    (h : Memory.wf d bound m) (hkj : k ≠ j) : Memory.read d (Memory.write d m k v) j = Memory.read d m j := by
  unfold Memory.read Memory.write
  split_ifs with hd
  · simp [Memory.lookup_erase m k j h.1, hkj]
  · simp [Memory.lookup_insert m k j v h.1, hkj]

theorem Memory.sorted_insert (m : Memory) (k : Nat) (v : Byte)
    (h : List.Pairwise (fun x y : Host.Cell => x.1 < y.1) m) :
    List.Pairwise (fun x y : Host.Cell => x.1 < y.1) (Memory.insert m k v) ∧
      ∀ x ∈ Memory.insert m k v, x = (k, v) ∨ x ∈ m := by
  induction m with
  | nil => simp [Memory.insert]
  | cons x m ih =>
    obtain ⟨a, b⟩ := x
    rw [List.pairwise_cons] at h
    have := ih h.2
    simp only [Memory.insert]
    split_ifs <;> simp_all [List.pairwise_cons] <;> grind

theorem Memory.sorted_erase (m : Memory) (k : Nat) (h : List.Pairwise (fun x y : Host.Cell => x.1 < y.1) m) :
    List.Pairwise (fun x y : Host.Cell => x.1 < y.1) (Memory.erase m k) ∧ ∀ x ∈ Memory.erase m k, x ∈ m := by
  induction m with
  | nil => simp [Memory.erase]
  | cons x m ih =>
    obtain ⟨a, b⟩ := x
    rw [List.pairwise_cons] at h
    have := ih h.2
    simp only [Memory.erase]
    split_ifs <;> simp_all [List.pairwise_cons]
    grind

/-- A write keeps the canonical form. -/
theorem Memory.wf_write (d : Option Byte) (bound : Nat) (m : Memory) (k : Nat) (v : Byte)
    (h : Memory.wf d bound m) (hk : k < bound) : Memory.wf d bound (Memory.write d m k v) := by
  obtain ⟨hs, hb⟩ := h
  unfold Memory.write
  split_ifs with hd
  · exact ⟨(Memory.sorted_erase m k hs).1, fun x hx => hb x ((Memory.sorted_erase m k hs).2 x hx)⟩
  · refine ⟨(Memory.sorted_insert m k v hs).1, fun x hx => ?_⟩
    rcases (Memory.sorted_insert m k v hs).2 x hx with rfl | hm
    · exact ⟨hk, hd⟩
    · exact hb x hm

/-- The memories at reset are canonical. -/
theorem reset_memory_wf (p : Params) :
    Memory.wf rasterUnlisted p.rasterBytes (resetWith p).raster ∧ Memory.wf sourceUnlisted (2 ^ 32) (resetWith p).src := by
  simp [resetWith, Memory.wf]

end Sys2Proof.Machine
end

