-- ==== Sys2Proof/Laws/State.lean ====
section
/-! SUPPORT. Every field of the state after each named update: one lemma per field, true by definition. -/

namespace Sys2Proof.Machine

/-! ### A rejected command (R241) -/

@[simp] theorem raiseCmdError_cfg (e : CmdError) (s : State) : (raiseCmdError e s).cfg = s.cfg := rfl
@[simp] theorem raiseCmdError_result (e : CmdError) (s : State) : (raiseCmdError e s).result = s.result := rfl
@[simp] theorem raiseCmdError_tileOrigin (e : CmdError) (s : State) : (raiseCmdError e s).tileOrigin = s.tileOrigin := rfl
@[simp] theorem raiseCmdError_tileSize (e : CmdError) (s : State) : (raiseCmdError e s).tileSize = s.tileSize := rfl
@[simp] theorem raiseCmdError_srcAddr (e : CmdError) (s : State) : (raiseCmdError e s).srcAddr = s.srcAddr := rfl
@[simp] theorem raiseCmdError_mode (e : CmdError) (s : State) : (raiseCmdError e s).mode = s.mode := rfl
@[simp] theorem raiseCmdError_lastMode (e : CmdError) (s : State) : (raiseCmdError e s).lastMode = s.lastMode := rfl
@[simp] theorem raiseCmdError_busy (e : CmdError) (s : State) : (raiseCmdError e s).busy = s.busy := rfl
@[simp] theorem raiseCmdError_dirty (e : CmdError) (s : State) : (raiseCmdError e s).dirty = s.dirty := rfl
@[simp] theorem raiseCmdError_errCode (e : CmdError) (s : State) : (raiseCmdError e s).errCode = if s.errCode = 0 then errorCode e else s.errCode := rfl
@[simp] theorem raiseCmdError_errOverflow (e : CmdError) (s : State) : (raiseCmdError e s).errOverflow = if s.errCode = 0 then s.errOverflow else true := rfl
@[simp] theorem raiseCmdError_intStatus (e : CmdError) (s : State) : (raiseCmdError e s).intStatus = s.intStatus ||| causeCmdErr := rfl
@[simp] theorem raiseCmdError_intEnable (e : CmdError) (s : State) : (raiseCmdError e s).intEnable = s.intEnable := rfl
@[simp] theorem raiseCmdError_threshold (e : CmdError) (s : State) : (raiseCmdError e s).threshold = s.threshold := rfl
@[simp] theorem raiseCmdError_partialCount (e : CmdError) (s : State) : (raiseCmdError e s).partialCount = s.partialCount := rfl
@[simp] theorem raiseCmdError_accRows (e : CmdError) (s : State) : (raiseCmdError e s).accRows = s.accRows := rfl
@[simp] theorem raiseCmdError_accWidth (e : CmdError) (s : State) : (raiseCmdError e s).accWidth = s.accWidth := rfl
@[simp] theorem raiseCmdError_fallbackCount (e : CmdError) (s : State) : (raiseCmdError e s).fallbackCount = s.fallbackCount := rfl
@[simp] theorem raiseCmdError_panelFailCount (e : CmdError) (s : State) : (raiseCmdError e s).panelFailCount = s.panelFailCount := rfl
@[simp] theorem raiseCmdError_lastFailOp (e : CmdError) (s : State) : (raiseCmdError e s).lastFailOp = s.lastFailOp := rfl
@[simp] theorem raiseCmdError_lastFailPlane (e : CmdError) (s : State) : (raiseCmdError e s).lastFailPlane = s.lastFailPlane := rfl
@[simp] theorem raiseCmdError_lx (e : CmdError) (s : State) : (raiseCmdError e s).lx = s.lx := rfl
@[simp] theorem raiseCmdError_ly (e : CmdError) (s : State) : (raiseCmdError e s).ly = s.ly := rfl
@[simp] theorem raiseCmdError_lw (e : CmdError) (s : State) : (raiseCmdError e s).lw = s.lw := rfl
@[simp] theorem raiseCmdError_lh (e : CmdError) (s : State) : (raiseCmdError e s).lh = s.lh := rfl
@[simp] theorem raiseCmdError_lsrc (e : CmdError) (s : State) : (raiseCmdError e s).lsrc = s.lsrc := rfl
@[simp] theorem raiseCmdError_lfmt (e : CmdError) (s : State) : (raiseCmdError e s).lfmt = s.lfmt := rfl
@[simp] theorem raiseCmdError_lbpp (e : CmdError) (s : State) : (raiseCmdError e s).lbpp = s.lbpp := rfl
@[simp] theorem raiseCmdError_algo (e : CmdError) (s : State) : (raiseCmdError e s).algo = s.algo := rfl
@[simp] theorem raiseCmdError_curR (e : CmdError) (s : State) : (raiseCmdError e s).curR = s.curR := rfl
@[simp] theorem raiseCmdError_curC (e : CmdError) (s : State) : (raiseCmdError e s).curC = s.curC := rfl
@[simp] theorem raiseCmdError_acc (e : CmdError) (s : State) : (raiseCmdError e s).acc = s.acc := rfl
@[simp] theorem raiseCmdError_schedState (e : CmdError) (s : State) : (raiseCmdError e s).schedState = s.schedState := rfl
@[simp] theorem raiseCmdError_schedPhase (e : CmdError) (s : State) : (raiseCmdError e s).schedPhase = s.schedPhase := rfl
@[simp] theorem raiseCmdError_plane (e : CmdError) (s : State) : (raiseCmdError e s).plane = s.plane := rfl
@[simp] theorem raiseCmdError_lut (e : CmdError) (s : State) : (raiseCmdError e s).lut = s.lut := rfl
@[simp] theorem raiseCmdError_drawIndex (e : CmdError) (s : State) : (raiseCmdError e s).drawIndex = s.drawIndex := rfl
@[simp] theorem raiseCmdError_drawBuf (e : CmdError) (s : State) : (raiseCmdError e s).drawBuf = s.drawBuf := rfl
@[simp] theorem raiseCmdError_outstanding (e : CmdError) (s : State) : (raiseCmdError e s).outstanding = s.outstanding := rfl
@[simp] theorem raiseCmdError_pollElapsed (e : CmdError) (s : State) : (raiseCmdError e s).pollElapsed = s.pollElapsed := rfl
@[simp] theorem raiseCmdError_raster (e : CmdError) (s : State) : (raiseCmdError e s).raster = s.raster := rfl
@[simp] theorem raiseCmdError_src (e : CmdError) (s : State) : (raiseCmdError e s).src = s.src := rfl
@[simp] theorem raiseCmdError_srcChanged (e : CmdError) (s : State) : (raiseCmdError e s).srcChanged = s.srcChanged := rfl
@[simp] theorem raiseCmdError_busReply (e : CmdError) (s : State) : (raiseCmdError e s).busReply = s.busReply := rfl
@[simp] theorem raiseCmdError_panelLog (e : CmdError) (s : State) : (raiseCmdError e s).panelLog = s.panelLog := rfl
@[simp] theorem raiseCmdError_resetHeld (e : CmdError) (s : State) : (raiseCmdError e s).resetHeld = s.resetHeld := rfl
@[simp] theorem raiseCmdError_schedule (e : CmdError) (s : State) : (raiseCmdError e s).schedule = s.schedule := rfl
@[simp] theorem raiseCmdError_program (e : CmdError) (s : State) : (raiseCmdError e s).program = s.program := rfl
@[simp] theorem raiseCmdError_freeCount (e : CmdError) (s : State) : (raiseCmdError e s).freeCount = s.freeCount := rfl

/-! ### A write to ERR (R31) -/

@[simp] theorem clearCmdError_cfg (s : State) : (clearCmdError s).cfg = s.cfg := rfl
@[simp] theorem clearCmdError_result (s : State) : (clearCmdError s).result = s.result := rfl
@[simp] theorem clearCmdError_tileOrigin (s : State) : (clearCmdError s).tileOrigin = s.tileOrigin := rfl
@[simp] theorem clearCmdError_tileSize (s : State) : (clearCmdError s).tileSize = s.tileSize := rfl
@[simp] theorem clearCmdError_srcAddr (s : State) : (clearCmdError s).srcAddr = s.srcAddr := rfl
@[simp] theorem clearCmdError_mode (s : State) : (clearCmdError s).mode = s.mode := rfl
@[simp] theorem clearCmdError_lastMode (s : State) : (clearCmdError s).lastMode = s.lastMode := rfl
@[simp] theorem clearCmdError_busy (s : State) : (clearCmdError s).busy = s.busy := rfl
@[simp] theorem clearCmdError_dirty (s : State) : (clearCmdError s).dirty = s.dirty := rfl
@[simp] theorem clearCmdError_errCode (s : State) : (clearCmdError s).errCode = 0 := rfl
@[simp] theorem clearCmdError_errOverflow (s : State) : (clearCmdError s).errOverflow = false := rfl
@[simp] theorem clearCmdError_intStatus (s : State) : (clearCmdError s).intStatus = s.intStatus := rfl
@[simp] theorem clearCmdError_intEnable (s : State) : (clearCmdError s).intEnable = s.intEnable := rfl
@[simp] theorem clearCmdError_threshold (s : State) : (clearCmdError s).threshold = s.threshold := rfl
@[simp] theorem clearCmdError_partialCount (s : State) : (clearCmdError s).partialCount = s.partialCount := rfl
@[simp] theorem clearCmdError_accRows (s : State) : (clearCmdError s).accRows = s.accRows := rfl
@[simp] theorem clearCmdError_accWidth (s : State) : (clearCmdError s).accWidth = s.accWidth := rfl
@[simp] theorem clearCmdError_fallbackCount (s : State) : (clearCmdError s).fallbackCount = s.fallbackCount := rfl
@[simp] theorem clearCmdError_panelFailCount (s : State) : (clearCmdError s).panelFailCount = s.panelFailCount := rfl
@[simp] theorem clearCmdError_lastFailOp (s : State) : (clearCmdError s).lastFailOp = s.lastFailOp := rfl
@[simp] theorem clearCmdError_lastFailPlane (s : State) : (clearCmdError s).lastFailPlane = s.lastFailPlane := rfl
@[simp] theorem clearCmdError_lx (s : State) : (clearCmdError s).lx = s.lx := rfl
@[simp] theorem clearCmdError_ly (s : State) : (clearCmdError s).ly = s.ly := rfl
@[simp] theorem clearCmdError_lw (s : State) : (clearCmdError s).lw = s.lw := rfl
@[simp] theorem clearCmdError_lh (s : State) : (clearCmdError s).lh = s.lh := rfl
@[simp] theorem clearCmdError_lsrc (s : State) : (clearCmdError s).lsrc = s.lsrc := rfl
@[simp] theorem clearCmdError_lfmt (s : State) : (clearCmdError s).lfmt = s.lfmt := rfl
@[simp] theorem clearCmdError_lbpp (s : State) : (clearCmdError s).lbpp = s.lbpp := rfl
@[simp] theorem clearCmdError_algo (s : State) : (clearCmdError s).algo = s.algo := rfl
@[simp] theorem clearCmdError_curR (s : State) : (clearCmdError s).curR = s.curR := rfl
@[simp] theorem clearCmdError_curC (s : State) : (clearCmdError s).curC = s.curC := rfl
@[simp] theorem clearCmdError_acc (s : State) : (clearCmdError s).acc = s.acc := rfl
@[simp] theorem clearCmdError_schedState (s : State) : (clearCmdError s).schedState = s.schedState := rfl
@[simp] theorem clearCmdError_schedPhase (s : State) : (clearCmdError s).schedPhase = s.schedPhase := rfl
@[simp] theorem clearCmdError_plane (s : State) : (clearCmdError s).plane = s.plane := rfl
@[simp] theorem clearCmdError_lut (s : State) : (clearCmdError s).lut = s.lut := rfl
@[simp] theorem clearCmdError_drawIndex (s : State) : (clearCmdError s).drawIndex = s.drawIndex := rfl
@[simp] theorem clearCmdError_drawBuf (s : State) : (clearCmdError s).drawBuf = s.drawBuf := rfl
@[simp] theorem clearCmdError_outstanding (s : State) : (clearCmdError s).outstanding = s.outstanding := rfl
@[simp] theorem clearCmdError_pollElapsed (s : State) : (clearCmdError s).pollElapsed = s.pollElapsed := rfl
@[simp] theorem clearCmdError_raster (s : State) : (clearCmdError s).raster = s.raster := rfl
@[simp] theorem clearCmdError_src (s : State) : (clearCmdError s).src = s.src := rfl
@[simp] theorem clearCmdError_srcChanged (s : State) : (clearCmdError s).srcChanged = s.srcChanged := rfl
@[simp] theorem clearCmdError_busReply (s : State) : (clearCmdError s).busReply = s.busReply := rfl
@[simp] theorem clearCmdError_panelLog (s : State) : (clearCmdError s).panelLog = s.panelLog := rfl
@[simp] theorem clearCmdError_resetHeld (s : State) : (clearCmdError s).resetHeld = s.resetHeld := rfl
@[simp] theorem clearCmdError_schedule (s : State) : (clearCmdError s).schedule = s.schedule := rfl
@[simp] theorem clearCmdError_program (s : State) : (clearCmdError s).program = s.program := rfl
@[simp] theorem clearCmdError_freeCount (s : State) : (clearCmdError s).freeCount = s.freeCount := rfl

/-! ### RESULT takes a value (R25) -/

@[simp] theorem setResult_cfg (v : Word) (s : State) : (setResult v s).cfg = s.cfg := rfl
@[simp] theorem setResult_result (v : Word) (s : State) : (setResult v s).result = v := rfl
@[simp] theorem setResult_tileOrigin (v : Word) (s : State) : (setResult v s).tileOrigin = s.tileOrigin := rfl
@[simp] theorem setResult_tileSize (v : Word) (s : State) : (setResult v s).tileSize = s.tileSize := rfl
@[simp] theorem setResult_srcAddr (v : Word) (s : State) : (setResult v s).srcAddr = s.srcAddr := rfl
@[simp] theorem setResult_mode (v : Word) (s : State) : (setResult v s).mode = s.mode := rfl
@[simp] theorem setResult_lastMode (v : Word) (s : State) : (setResult v s).lastMode = s.lastMode := rfl
@[simp] theorem setResult_busy (v : Word) (s : State) : (setResult v s).busy = s.busy := rfl
@[simp] theorem setResult_dirty (v : Word) (s : State) : (setResult v s).dirty = s.dirty := rfl
@[simp] theorem setResult_errCode (v : Word) (s : State) : (setResult v s).errCode = s.errCode := rfl
@[simp] theorem setResult_errOverflow (v : Word) (s : State) : (setResult v s).errOverflow = s.errOverflow := rfl
@[simp] theorem setResult_intStatus (v : Word) (s : State) : (setResult v s).intStatus = s.intStatus := rfl
@[simp] theorem setResult_intEnable (v : Word) (s : State) : (setResult v s).intEnable = s.intEnable := rfl
@[simp] theorem setResult_threshold (v : Word) (s : State) : (setResult v s).threshold = s.threshold := rfl
@[simp] theorem setResult_partialCount (v : Word) (s : State) : (setResult v s).partialCount = s.partialCount := rfl
@[simp] theorem setResult_accRows (v : Word) (s : State) : (setResult v s).accRows = s.accRows := rfl
@[simp] theorem setResult_accWidth (v : Word) (s : State) : (setResult v s).accWidth = s.accWidth := rfl
@[simp] theorem setResult_fallbackCount (v : Word) (s : State) : (setResult v s).fallbackCount = s.fallbackCount := rfl
@[simp] theorem setResult_panelFailCount (v : Word) (s : State) : (setResult v s).panelFailCount = s.panelFailCount := rfl
@[simp] theorem setResult_lastFailOp (v : Word) (s : State) : (setResult v s).lastFailOp = s.lastFailOp := rfl
@[simp] theorem setResult_lastFailPlane (v : Word) (s : State) : (setResult v s).lastFailPlane = s.lastFailPlane := rfl
@[simp] theorem setResult_lx (v : Word) (s : State) : (setResult v s).lx = s.lx := rfl
@[simp] theorem setResult_ly (v : Word) (s : State) : (setResult v s).ly = s.ly := rfl
@[simp] theorem setResult_lw (v : Word) (s : State) : (setResult v s).lw = s.lw := rfl
@[simp] theorem setResult_lh (v : Word) (s : State) : (setResult v s).lh = s.lh := rfl
@[simp] theorem setResult_lsrc (v : Word) (s : State) : (setResult v s).lsrc = s.lsrc := rfl
@[simp] theorem setResult_lfmt (v : Word) (s : State) : (setResult v s).lfmt = s.lfmt := rfl
@[simp] theorem setResult_lbpp (v : Word) (s : State) : (setResult v s).lbpp = s.lbpp := rfl
@[simp] theorem setResult_algo (v : Word) (s : State) : (setResult v s).algo = s.algo := rfl
@[simp] theorem setResult_curR (v : Word) (s : State) : (setResult v s).curR = s.curR := rfl
@[simp] theorem setResult_curC (v : Word) (s : State) : (setResult v s).curC = s.curC := rfl
@[simp] theorem setResult_acc (v : Word) (s : State) : (setResult v s).acc = s.acc := rfl
@[simp] theorem setResult_schedState (v : Word) (s : State) : (setResult v s).schedState = s.schedState := rfl
@[simp] theorem setResult_schedPhase (v : Word) (s : State) : (setResult v s).schedPhase = s.schedPhase := rfl
@[simp] theorem setResult_plane (v : Word) (s : State) : (setResult v s).plane = s.plane := rfl
@[simp] theorem setResult_lut (v : Word) (s : State) : (setResult v s).lut = s.lut := rfl
@[simp] theorem setResult_drawIndex (v : Word) (s : State) : (setResult v s).drawIndex = s.drawIndex := rfl
@[simp] theorem setResult_drawBuf (v : Word) (s : State) : (setResult v s).drawBuf = s.drawBuf := rfl
@[simp] theorem setResult_outstanding (v : Word) (s : State) : (setResult v s).outstanding = s.outstanding := rfl
@[simp] theorem setResult_pollElapsed (v : Word) (s : State) : (setResult v s).pollElapsed = s.pollElapsed := rfl
@[simp] theorem setResult_raster (v : Word) (s : State) : (setResult v s).raster = s.raster := rfl
@[simp] theorem setResult_src (v : Word) (s : State) : (setResult v s).src = s.src := rfl
@[simp] theorem setResult_srcChanged (v : Word) (s : State) : (setResult v s).srcChanged = s.srcChanged := rfl
@[simp] theorem setResult_busReply (v : Word) (s : State) : (setResult v s).busReply = s.busReply := rfl
@[simp] theorem setResult_panelLog (v : Word) (s : State) : (setResult v s).panelLog = s.panelLog := rfl
@[simp] theorem setResult_resetHeld (v : Word) (s : State) : (setResult v s).resetHeld = s.resetHeld := rfl
@[simp] theorem setResult_schedule (v : Word) (s : State) : (setResult v s).schedule = s.schedule := rfl
@[simp] theorem setResult_program (v : Word) (s : State) : (setResult v s).program = s.program := rfl
@[simp] theorem setResult_freeCount (v : Word) (s : State) : (setResult v s).freeCount = s.freeCount := rfl

/-! ### The response of a transfer (R62) -/

@[simp] theorem setReply_cfg (r : BusReply) (s : State) : (setReply r s).cfg = s.cfg := rfl
@[simp] theorem setReply_result (r : BusReply) (s : State) : (setReply r s).result = s.result := rfl
@[simp] theorem setReply_tileOrigin (r : BusReply) (s : State) : (setReply r s).tileOrigin = s.tileOrigin := rfl
@[simp] theorem setReply_tileSize (r : BusReply) (s : State) : (setReply r s).tileSize = s.tileSize := rfl
@[simp] theorem setReply_srcAddr (r : BusReply) (s : State) : (setReply r s).srcAddr = s.srcAddr := rfl
@[simp] theorem setReply_mode (r : BusReply) (s : State) : (setReply r s).mode = s.mode := rfl
@[simp] theorem setReply_lastMode (r : BusReply) (s : State) : (setReply r s).lastMode = s.lastMode := rfl
@[simp] theorem setReply_busy (r : BusReply) (s : State) : (setReply r s).busy = s.busy := rfl
@[simp] theorem setReply_dirty (r : BusReply) (s : State) : (setReply r s).dirty = s.dirty := rfl
@[simp] theorem setReply_errCode (r : BusReply) (s : State) : (setReply r s).errCode = s.errCode := rfl
@[simp] theorem setReply_errOverflow (r : BusReply) (s : State) : (setReply r s).errOverflow = s.errOverflow := rfl
@[simp] theorem setReply_intStatus (r : BusReply) (s : State) : (setReply r s).intStatus = s.intStatus := rfl
@[simp] theorem setReply_intEnable (r : BusReply) (s : State) : (setReply r s).intEnable = s.intEnable := rfl
@[simp] theorem setReply_threshold (r : BusReply) (s : State) : (setReply r s).threshold = s.threshold := rfl
@[simp] theorem setReply_partialCount (r : BusReply) (s : State) : (setReply r s).partialCount = s.partialCount := rfl
@[simp] theorem setReply_accRows (r : BusReply) (s : State) : (setReply r s).accRows = s.accRows := rfl
@[simp] theorem setReply_accWidth (r : BusReply) (s : State) : (setReply r s).accWidth = s.accWidth := rfl
@[simp] theorem setReply_fallbackCount (r : BusReply) (s : State) : (setReply r s).fallbackCount = s.fallbackCount := rfl
@[simp] theorem setReply_panelFailCount (r : BusReply) (s : State) : (setReply r s).panelFailCount = s.panelFailCount := rfl
@[simp] theorem setReply_lastFailOp (r : BusReply) (s : State) : (setReply r s).lastFailOp = s.lastFailOp := rfl
@[simp] theorem setReply_lastFailPlane (r : BusReply) (s : State) : (setReply r s).lastFailPlane = s.lastFailPlane := rfl
@[simp] theorem setReply_lx (r : BusReply) (s : State) : (setReply r s).lx = s.lx := rfl
@[simp] theorem setReply_ly (r : BusReply) (s : State) : (setReply r s).ly = s.ly := rfl
@[simp] theorem setReply_lw (r : BusReply) (s : State) : (setReply r s).lw = s.lw := rfl
@[simp] theorem setReply_lh (r : BusReply) (s : State) : (setReply r s).lh = s.lh := rfl
@[simp] theorem setReply_lsrc (r : BusReply) (s : State) : (setReply r s).lsrc = s.lsrc := rfl
@[simp] theorem setReply_lfmt (r : BusReply) (s : State) : (setReply r s).lfmt = s.lfmt := rfl
@[simp] theorem setReply_lbpp (r : BusReply) (s : State) : (setReply r s).lbpp = s.lbpp := rfl
@[simp] theorem setReply_algo (r : BusReply) (s : State) : (setReply r s).algo = s.algo := rfl
@[simp] theorem setReply_curR (r : BusReply) (s : State) : (setReply r s).curR = s.curR := rfl
@[simp] theorem setReply_curC (r : BusReply) (s : State) : (setReply r s).curC = s.curC := rfl
@[simp] theorem setReply_acc (r : BusReply) (s : State) : (setReply r s).acc = s.acc := rfl
@[simp] theorem setReply_schedState (r : BusReply) (s : State) : (setReply r s).schedState = s.schedState := rfl
@[simp] theorem setReply_schedPhase (r : BusReply) (s : State) : (setReply r s).schedPhase = s.schedPhase := rfl
@[simp] theorem setReply_plane (r : BusReply) (s : State) : (setReply r s).plane = s.plane := rfl
@[simp] theorem setReply_lut (r : BusReply) (s : State) : (setReply r s).lut = s.lut := rfl
@[simp] theorem setReply_drawIndex (r : BusReply) (s : State) : (setReply r s).drawIndex = s.drawIndex := rfl
@[simp] theorem setReply_drawBuf (r : BusReply) (s : State) : (setReply r s).drawBuf = s.drawBuf := rfl
@[simp] theorem setReply_outstanding (r : BusReply) (s : State) : (setReply r s).outstanding = s.outstanding := rfl
@[simp] theorem setReply_pollElapsed (r : BusReply) (s : State) : (setReply r s).pollElapsed = s.pollElapsed := rfl
@[simp] theorem setReply_raster (r : BusReply) (s : State) : (setReply r s).raster = s.raster := rfl
@[simp] theorem setReply_src (r : BusReply) (s : State) : (setReply r s).src = s.src := rfl
@[simp] theorem setReply_srcChanged (r : BusReply) (s : State) : (setReply r s).srcChanged = s.srcChanged := rfl
@[simp] theorem setReply_busReply (r : BusReply) (s : State) : (setReply r s).busReply = some r := rfl
@[simp] theorem setReply_panelLog (r : BusReply) (s : State) : (setReply r s).panelLog = s.panelLog := rfl
@[simp] theorem setReply_resetHeld (r : BusReply) (s : State) : (setReply r s).resetHeld = s.resetHeld := rfl
@[simp] theorem setReply_schedule (r : BusReply) (s : State) : (setReply r s).schedule = s.schedule := rfl
@[simp] theorem setReply_program (r : BusReply) (s : State) : (setReply r s).program = s.program := rfl
@[simp] theorem setReply_freeCount (r : BusReply) (s : State) : (setReply r s).freeCount = s.freeCount := rfl

/-! ### The host's program (R66) -/

@[simp] theorem setProgram_cfg (p : List HostOp) (s : State) : (setProgram p s).cfg = s.cfg := rfl
@[simp] theorem setProgram_result (p : List HostOp) (s : State) : (setProgram p s).result = s.result := rfl
@[simp] theorem setProgram_tileOrigin (p : List HostOp) (s : State) : (setProgram p s).tileOrigin = s.tileOrigin := rfl
@[simp] theorem setProgram_tileSize (p : List HostOp) (s : State) : (setProgram p s).tileSize = s.tileSize := rfl
@[simp] theorem setProgram_srcAddr (p : List HostOp) (s : State) : (setProgram p s).srcAddr = s.srcAddr := rfl
@[simp] theorem setProgram_mode (p : List HostOp) (s : State) : (setProgram p s).mode = s.mode := rfl
@[simp] theorem setProgram_lastMode (p : List HostOp) (s : State) : (setProgram p s).lastMode = s.lastMode := rfl
@[simp] theorem setProgram_busy (p : List HostOp) (s : State) : (setProgram p s).busy = s.busy := rfl
@[simp] theorem setProgram_dirty (p : List HostOp) (s : State) : (setProgram p s).dirty = s.dirty := rfl
@[simp] theorem setProgram_errCode (p : List HostOp) (s : State) : (setProgram p s).errCode = s.errCode := rfl
@[simp] theorem setProgram_errOverflow (p : List HostOp) (s : State) : (setProgram p s).errOverflow = s.errOverflow := rfl
@[simp] theorem setProgram_intStatus (p : List HostOp) (s : State) : (setProgram p s).intStatus = s.intStatus := rfl
@[simp] theorem setProgram_intEnable (p : List HostOp) (s : State) : (setProgram p s).intEnable = s.intEnable := rfl
@[simp] theorem setProgram_threshold (p : List HostOp) (s : State) : (setProgram p s).threshold = s.threshold := rfl
@[simp] theorem setProgram_partialCount (p : List HostOp) (s : State) : (setProgram p s).partialCount = s.partialCount := rfl
@[simp] theorem setProgram_accRows (p : List HostOp) (s : State) : (setProgram p s).accRows = s.accRows := rfl
@[simp] theorem setProgram_accWidth (p : List HostOp) (s : State) : (setProgram p s).accWidth = s.accWidth := rfl
@[simp] theorem setProgram_fallbackCount (p : List HostOp) (s : State) : (setProgram p s).fallbackCount = s.fallbackCount := rfl
@[simp] theorem setProgram_panelFailCount (p : List HostOp) (s : State) : (setProgram p s).panelFailCount = s.panelFailCount := rfl
@[simp] theorem setProgram_lastFailOp (p : List HostOp) (s : State) : (setProgram p s).lastFailOp = s.lastFailOp := rfl
@[simp] theorem setProgram_lastFailPlane (p : List HostOp) (s : State) : (setProgram p s).lastFailPlane = s.lastFailPlane := rfl
@[simp] theorem setProgram_lx (p : List HostOp) (s : State) : (setProgram p s).lx = s.lx := rfl
@[simp] theorem setProgram_ly (p : List HostOp) (s : State) : (setProgram p s).ly = s.ly := rfl
@[simp] theorem setProgram_lw (p : List HostOp) (s : State) : (setProgram p s).lw = s.lw := rfl
@[simp] theorem setProgram_lh (p : List HostOp) (s : State) : (setProgram p s).lh = s.lh := rfl
@[simp] theorem setProgram_lsrc (p : List HostOp) (s : State) : (setProgram p s).lsrc = s.lsrc := rfl
@[simp] theorem setProgram_lfmt (p : List HostOp) (s : State) : (setProgram p s).lfmt = s.lfmt := rfl
@[simp] theorem setProgram_lbpp (p : List HostOp) (s : State) : (setProgram p s).lbpp = s.lbpp := rfl
@[simp] theorem setProgram_algo (p : List HostOp) (s : State) : (setProgram p s).algo = s.algo := rfl
@[simp] theorem setProgram_curR (p : List HostOp) (s : State) : (setProgram p s).curR = s.curR := rfl
@[simp] theorem setProgram_curC (p : List HostOp) (s : State) : (setProgram p s).curC = s.curC := rfl
@[simp] theorem setProgram_acc (p : List HostOp) (s : State) : (setProgram p s).acc = s.acc := rfl
@[simp] theorem setProgram_schedState (p : List HostOp) (s : State) : (setProgram p s).schedState = s.schedState := rfl
@[simp] theorem setProgram_schedPhase (p : List HostOp) (s : State) : (setProgram p s).schedPhase = s.schedPhase := rfl
@[simp] theorem setProgram_plane (p : List HostOp) (s : State) : (setProgram p s).plane = s.plane := rfl
@[simp] theorem setProgram_lut (p : List HostOp) (s : State) : (setProgram p s).lut = s.lut := rfl
@[simp] theorem setProgram_drawIndex (p : List HostOp) (s : State) : (setProgram p s).drawIndex = s.drawIndex := rfl
@[simp] theorem setProgram_drawBuf (p : List HostOp) (s : State) : (setProgram p s).drawBuf = s.drawBuf := rfl
@[simp] theorem setProgram_outstanding (p : List HostOp) (s : State) : (setProgram p s).outstanding = s.outstanding := rfl
@[simp] theorem setProgram_pollElapsed (p : List HostOp) (s : State) : (setProgram p s).pollElapsed = s.pollElapsed := rfl
@[simp] theorem setProgram_raster (p : List HostOp) (s : State) : (setProgram p s).raster = s.raster := rfl
@[simp] theorem setProgram_src (p : List HostOp) (s : State) : (setProgram p s).src = s.src := rfl
@[simp] theorem setProgram_srcChanged (p : List HostOp) (s : State) : (setProgram p s).srcChanged = s.srcChanged := rfl
@[simp] theorem setProgram_busReply (p : List HostOp) (s : State) : (setProgram p s).busReply = s.busReply := rfl
@[simp] theorem setProgram_panelLog (p : List HostOp) (s : State) : (setProgram p s).panelLog = s.panelLog := rfl
@[simp] theorem setProgram_resetHeld (p : List HostOp) (s : State) : (setProgram p s).resetHeld = s.resetHeld := rfl
@[simp] theorem setProgram_schedule (p : List HostOp) (s : State) : (setProgram p s).schedule = s.schedule := rfl
@[simp] theorem setProgram_program (p : List HostOp) (s : State) : (setProgram p s).program = p := rfl
@[simp] theorem setProgram_freeCount (p : List HostOp) (s : State) : (setProgram p s).freeCount = s.freeCount := rfl

/-! ### RasterWrite (R70) -/

@[simp] theorem rasterWrite_cfg (i : Nat) (v : Byte) (s : State) : (rasterWrite i v s).cfg = s.cfg := rfl
@[simp] theorem rasterWrite_result (i : Nat) (v : Byte) (s : State) : (rasterWrite i v s).result = s.result := rfl
@[simp] theorem rasterWrite_tileOrigin (i : Nat) (v : Byte) (s : State) : (rasterWrite i v s).tileOrigin = s.tileOrigin := rfl
@[simp] theorem rasterWrite_tileSize (i : Nat) (v : Byte) (s : State) : (rasterWrite i v s).tileSize = s.tileSize := rfl
@[simp] theorem rasterWrite_srcAddr (i : Nat) (v : Byte) (s : State) : (rasterWrite i v s).srcAddr = s.srcAddr := rfl
@[simp] theorem rasterWrite_mode (i : Nat) (v : Byte) (s : State) : (rasterWrite i v s).mode = s.mode := rfl
@[simp] theorem rasterWrite_lastMode (i : Nat) (v : Byte) (s : State) : (rasterWrite i v s).lastMode = s.lastMode := rfl
@[simp] theorem rasterWrite_busy (i : Nat) (v : Byte) (s : State) : (rasterWrite i v s).busy = s.busy := rfl
@[simp] theorem rasterWrite_dirty (i : Nat) (v : Byte) (s : State) : (rasterWrite i v s).dirty = s.dirty := rfl
@[simp] theorem rasterWrite_errCode (i : Nat) (v : Byte) (s : State) : (rasterWrite i v s).errCode = s.errCode := rfl
@[simp] theorem rasterWrite_errOverflow (i : Nat) (v : Byte) (s : State) : (rasterWrite i v s).errOverflow = s.errOverflow := rfl
@[simp] theorem rasterWrite_intStatus (i : Nat) (v : Byte) (s : State) : (rasterWrite i v s).intStatus = s.intStatus := rfl
@[simp] theorem rasterWrite_intEnable (i : Nat) (v : Byte) (s : State) : (rasterWrite i v s).intEnable = s.intEnable := rfl
@[simp] theorem rasterWrite_threshold (i : Nat) (v : Byte) (s : State) : (rasterWrite i v s).threshold = s.threshold := rfl
@[simp] theorem rasterWrite_partialCount (i : Nat) (v : Byte) (s : State) : (rasterWrite i v s).partialCount = s.partialCount := rfl
@[simp] theorem rasterWrite_accRows (i : Nat) (v : Byte) (s : State) : (rasterWrite i v s).accRows = s.accRows := rfl
@[simp] theorem rasterWrite_accWidth (i : Nat) (v : Byte) (s : State) : (rasterWrite i v s).accWidth = s.accWidth := rfl
@[simp] theorem rasterWrite_fallbackCount (i : Nat) (v : Byte) (s : State) : (rasterWrite i v s).fallbackCount = s.fallbackCount := rfl
@[simp] theorem rasterWrite_panelFailCount (i : Nat) (v : Byte) (s : State) : (rasterWrite i v s).panelFailCount = s.panelFailCount := rfl
@[simp] theorem rasterWrite_lastFailOp (i : Nat) (v : Byte) (s : State) : (rasterWrite i v s).lastFailOp = s.lastFailOp := rfl
@[simp] theorem rasterWrite_lastFailPlane (i : Nat) (v : Byte) (s : State) : (rasterWrite i v s).lastFailPlane = s.lastFailPlane := rfl
@[simp] theorem rasterWrite_lx (i : Nat) (v : Byte) (s : State) : (rasterWrite i v s).lx = s.lx := rfl
@[simp] theorem rasterWrite_ly (i : Nat) (v : Byte) (s : State) : (rasterWrite i v s).ly = s.ly := rfl
@[simp] theorem rasterWrite_lw (i : Nat) (v : Byte) (s : State) : (rasterWrite i v s).lw = s.lw := rfl
@[simp] theorem rasterWrite_lh (i : Nat) (v : Byte) (s : State) : (rasterWrite i v s).lh = s.lh := rfl
@[simp] theorem rasterWrite_lsrc (i : Nat) (v : Byte) (s : State) : (rasterWrite i v s).lsrc = s.lsrc := rfl
@[simp] theorem rasterWrite_lfmt (i : Nat) (v : Byte) (s : State) : (rasterWrite i v s).lfmt = s.lfmt := rfl
@[simp] theorem rasterWrite_lbpp (i : Nat) (v : Byte) (s : State) : (rasterWrite i v s).lbpp = s.lbpp := rfl
@[simp] theorem rasterWrite_algo (i : Nat) (v : Byte) (s : State) : (rasterWrite i v s).algo = s.algo := rfl
@[simp] theorem rasterWrite_curR (i : Nat) (v : Byte) (s : State) : (rasterWrite i v s).curR = s.curR := rfl
@[simp] theorem rasterWrite_curC (i : Nat) (v : Byte) (s : State) : (rasterWrite i v s).curC = s.curC := rfl
@[simp] theorem rasterWrite_acc (i : Nat) (v : Byte) (s : State) : (rasterWrite i v s).acc = s.acc := rfl
@[simp] theorem rasterWrite_schedState (i : Nat) (v : Byte) (s : State) : (rasterWrite i v s).schedState = s.schedState := rfl
@[simp] theorem rasterWrite_schedPhase (i : Nat) (v : Byte) (s : State) : (rasterWrite i v s).schedPhase = s.schedPhase := rfl
@[simp] theorem rasterWrite_plane (i : Nat) (v : Byte) (s : State) : (rasterWrite i v s).plane = s.plane := rfl
@[simp] theorem rasterWrite_lut (i : Nat) (v : Byte) (s : State) : (rasterWrite i v s).lut = s.lut := rfl
@[simp] theorem rasterWrite_drawIndex (i : Nat) (v : Byte) (s : State) : (rasterWrite i v s).drawIndex = s.drawIndex := rfl
@[simp] theorem rasterWrite_drawBuf (i : Nat) (v : Byte) (s : State) : (rasterWrite i v s).drawBuf = s.drawBuf := rfl
@[simp] theorem rasterWrite_outstanding (i : Nat) (v : Byte) (s : State) : (rasterWrite i v s).outstanding = s.outstanding := rfl
@[simp] theorem rasterWrite_pollElapsed (i : Nat) (v : Byte) (s : State) : (rasterWrite i v s).pollElapsed = s.pollElapsed := rfl
@[simp] theorem rasterWrite_raster (i : Nat) (v : Byte) (s : State) : (rasterWrite i v s).raster = Memory.write rasterUnlisted s.raster i v := rfl
@[simp] theorem rasterWrite_src (i : Nat) (v : Byte) (s : State) : (rasterWrite i v s).src = s.src := rfl
@[simp] theorem rasterWrite_srcChanged (i : Nat) (v : Byte) (s : State) : (rasterWrite i v s).srcChanged = s.srcChanged := rfl
@[simp] theorem rasterWrite_busReply (i : Nat) (v : Byte) (s : State) : (rasterWrite i v s).busReply = s.busReply := rfl
@[simp] theorem rasterWrite_panelLog (i : Nat) (v : Byte) (s : State) : (rasterWrite i v s).panelLog = s.panelLog := rfl
@[simp] theorem rasterWrite_resetHeld (i : Nat) (v : Byte) (s : State) : (rasterWrite i v s).resetHeld = s.resetHeld := rfl
@[simp] theorem rasterWrite_schedule (i : Nat) (v : Byte) (s : State) : (rasterWrite i v s).schedule = s.schedule := rfl
@[simp] theorem rasterWrite_program (i : Nat) (v : Byte) (s : State) : (rasterWrite i v s).program = s.program := rfl
@[simp] theorem rasterWrite_freeCount (i : Nat) (v : Byte) (s : State) : (rasterWrite i v s).freeCount = s.freeCount := rfl

/-! ### The buffers discarded (R130, R134) -/

@[simp] theorem discardBuffers_cfg (s : State) : (discardBuffers s).cfg = s.cfg := rfl
@[simp] theorem discardBuffers_result (s : State) : (discardBuffers s).result = s.result := rfl
@[simp] theorem discardBuffers_tileOrigin (s : State) : (discardBuffers s).tileOrigin = s.tileOrigin := rfl
@[simp] theorem discardBuffers_tileSize (s : State) : (discardBuffers s).tileSize = s.tileSize := rfl
@[simp] theorem discardBuffers_srcAddr (s : State) : (discardBuffers s).srcAddr = s.srcAddr := rfl
@[simp] theorem discardBuffers_mode (s : State) : (discardBuffers s).mode = s.mode := rfl
@[simp] theorem discardBuffers_lastMode (s : State) : (discardBuffers s).lastMode = s.lastMode := rfl
@[simp] theorem discardBuffers_busy (s : State) : (discardBuffers s).busy = s.busy := rfl
@[simp] theorem discardBuffers_dirty (s : State) : (discardBuffers s).dirty = s.dirty := rfl
@[simp] theorem discardBuffers_errCode (s : State) : (discardBuffers s).errCode = s.errCode := rfl
@[simp] theorem discardBuffers_errOverflow (s : State) : (discardBuffers s).errOverflow = s.errOverflow := rfl
@[simp] theorem discardBuffers_intStatus (s : State) : (discardBuffers s).intStatus = s.intStatus := rfl
@[simp] theorem discardBuffers_intEnable (s : State) : (discardBuffers s).intEnable = s.intEnable := rfl
@[simp] theorem discardBuffers_threshold (s : State) : (discardBuffers s).threshold = s.threshold := rfl
@[simp] theorem discardBuffers_partialCount (s : State) : (discardBuffers s).partialCount = s.partialCount := rfl
@[simp] theorem discardBuffers_accRows (s : State) : (discardBuffers s).accRows = 0 := rfl
@[simp] theorem discardBuffers_accWidth (s : State) : (discardBuffers s).accWidth = 0 := rfl
@[simp] theorem discardBuffers_fallbackCount (s : State) : (discardBuffers s).fallbackCount = s.fallbackCount := rfl
@[simp] theorem discardBuffers_panelFailCount (s : State) : (discardBuffers s).panelFailCount = s.panelFailCount := rfl
@[simp] theorem discardBuffers_lastFailOp (s : State) : (discardBuffers s).lastFailOp = s.lastFailOp := rfl
@[simp] theorem discardBuffers_lastFailPlane (s : State) : (discardBuffers s).lastFailPlane = s.lastFailPlane := rfl
@[simp] theorem discardBuffers_lx (s : State) : (discardBuffers s).lx = s.lx := rfl
@[simp] theorem discardBuffers_ly (s : State) : (discardBuffers s).ly = s.ly := rfl
@[simp] theorem discardBuffers_lw (s : State) : (discardBuffers s).lw = s.lw := rfl
@[simp] theorem discardBuffers_lh (s : State) : (discardBuffers s).lh = s.lh := rfl
@[simp] theorem discardBuffers_lsrc (s : State) : (discardBuffers s).lsrc = s.lsrc := rfl
@[simp] theorem discardBuffers_lfmt (s : State) : (discardBuffers s).lfmt = s.lfmt := rfl
@[simp] theorem discardBuffers_lbpp (s : State) : (discardBuffers s).lbpp = s.lbpp := rfl
@[simp] theorem discardBuffers_algo (s : State) : (discardBuffers s).algo = s.algo := rfl
@[simp] theorem discardBuffers_curR (s : State) : (discardBuffers s).curR = s.curR := rfl
@[simp] theorem discardBuffers_curC (s : State) : (discardBuffers s).curC = s.curC := rfl
@[simp] theorem discardBuffers_acc (s : State) : (discardBuffers s).acc = s.acc := rfl
@[simp] theorem discardBuffers_schedState (s : State) : (discardBuffers s).schedState = s.schedState := rfl
@[simp] theorem discardBuffers_schedPhase (s : State) : (discardBuffers s).schedPhase = s.schedPhase := rfl
@[simp] theorem discardBuffers_plane (s : State) : (discardBuffers s).plane = s.plane := rfl
@[simp] theorem discardBuffers_lut (s : State) : (discardBuffers s).lut = s.lut := rfl
@[simp] theorem discardBuffers_drawIndex (s : State) : (discardBuffers s).drawIndex = s.drawIndex := rfl
@[simp] theorem discardBuffers_drawBuf (s : State) : (discardBuffers s).drawBuf = s.drawBuf := rfl
@[simp] theorem discardBuffers_outstanding (s : State) : (discardBuffers s).outstanding = s.outstanding := rfl
@[simp] theorem discardBuffers_pollElapsed (s : State) : (discardBuffers s).pollElapsed = s.pollElapsed := rfl
@[simp] theorem discardBuffers_raster (s : State) : (discardBuffers s).raster = s.raster := rfl
@[simp] theorem discardBuffers_src (s : State) : (discardBuffers s).src = s.src := rfl
@[simp] theorem discardBuffers_srcChanged (s : State) : (discardBuffers s).srcChanged = s.srcChanged := rfl
@[simp] theorem discardBuffers_busReply (s : State) : (discardBuffers s).busReply = s.busReply := rfl
@[simp] theorem discardBuffers_panelLog (s : State) : (discardBuffers s).panelLog = s.panelLog := rfl
@[simp] theorem discardBuffers_resetHeld (s : State) : (discardBuffers s).resetHeld = s.resetHeld := rfl
@[simp] theorem discardBuffers_schedule (s : State) : (discardBuffers s).schedule = s.schedule := rfl
@[simp] theorem discardBuffers_program (s : State) : (discardBuffers s).program = s.program := rfl
@[simp] theorem discardBuffers_freeCount (s : State) : (discardBuffers s).freeCount = s.freeCount := rfl

/-! ### The completion step of a tile (R185) -/

@[simp] theorem completeTile_cfg (s : State) : (completeTile s).cfg = s.cfg := rfl
@[simp] theorem completeTile_result (s : State) : (completeTile s).result = s.result := rfl
@[simp] theorem completeTile_tileOrigin (s : State) : (completeTile s).tileOrigin = s.tileOrigin := rfl
@[simp] theorem completeTile_tileSize (s : State) : (completeTile s).tileSize = s.tileSize := rfl
@[simp] theorem completeTile_srcAddr (s : State) : (completeTile s).srcAddr = s.srcAddr := rfl
@[simp] theorem completeTile_mode (s : State) : (completeTile s).mode = s.mode := rfl
@[simp] theorem completeTile_lastMode (s : State) : (completeTile s).lastMode = s.lastMode := rfl
@[simp] theorem completeTile_busy (s : State) : (completeTile s).busy = false := rfl
@[simp] theorem completeTile_dirty (s : State) : (completeTile s).dirty = true := rfl
@[simp] theorem completeTile_errCode (s : State) : (completeTile s).errCode = s.errCode := rfl
@[simp] theorem completeTile_errOverflow (s : State) : (completeTile s).errOverflow = s.errOverflow := rfl
@[simp] theorem completeTile_intStatus (s : State) : (completeTile s).intStatus = s.intStatus ||| causeTileDone := rfl
@[simp] theorem completeTile_intEnable (s : State) : (completeTile s).intEnable = s.intEnable := rfl
@[simp] theorem completeTile_threshold (s : State) : (completeTile s).threshold = s.threshold := rfl
@[simp] theorem completeTile_partialCount (s : State) : (completeTile s).partialCount = s.partialCount := rfl
@[simp] theorem completeTile_accRows (s : State) : (completeTile s).accRows = s.accRows := rfl
@[simp] theorem completeTile_accWidth (s : State) : (completeTile s).accWidth = s.accWidth := rfl
@[simp] theorem completeTile_fallbackCount (s : State) : (completeTile s).fallbackCount = s.fallbackCount := rfl
@[simp] theorem completeTile_panelFailCount (s : State) : (completeTile s).panelFailCount = s.panelFailCount := rfl
@[simp] theorem completeTile_lastFailOp (s : State) : (completeTile s).lastFailOp = s.lastFailOp := rfl
@[simp] theorem completeTile_lastFailPlane (s : State) : (completeTile s).lastFailPlane = s.lastFailPlane := rfl
@[simp] theorem completeTile_lx (s : State) : (completeTile s).lx = s.lx := rfl
@[simp] theorem completeTile_ly (s : State) : (completeTile s).ly = s.ly := rfl
@[simp] theorem completeTile_lw (s : State) : (completeTile s).lw = s.lw := rfl
@[simp] theorem completeTile_lh (s : State) : (completeTile s).lh = s.lh := rfl
@[simp] theorem completeTile_lsrc (s : State) : (completeTile s).lsrc = s.lsrc := rfl
@[simp] theorem completeTile_lfmt (s : State) : (completeTile s).lfmt = s.lfmt := rfl
@[simp] theorem completeTile_lbpp (s : State) : (completeTile s).lbpp = s.lbpp := rfl
@[simp] theorem completeTile_algo (s : State) : (completeTile s).algo = s.algo := rfl
@[simp] theorem completeTile_curR (s : State) : (completeTile s).curR = s.curR := rfl
@[simp] theorem completeTile_curC (s : State) : (completeTile s).curC = s.curC := rfl
@[simp] theorem completeTile_acc (s : State) : (completeTile s).acc = s.acc := rfl
@[simp] theorem completeTile_schedState (s : State) : (completeTile s).schedState = s.schedState := rfl
@[simp] theorem completeTile_schedPhase (s : State) : (completeTile s).schedPhase = s.schedPhase := rfl
@[simp] theorem completeTile_plane (s : State) : (completeTile s).plane = s.plane := rfl
@[simp] theorem completeTile_lut (s : State) : (completeTile s).lut = s.lut := rfl
@[simp] theorem completeTile_drawIndex (s : State) : (completeTile s).drawIndex = s.drawIndex := rfl
@[simp] theorem completeTile_drawBuf (s : State) : (completeTile s).drawBuf = s.drawBuf := rfl
@[simp] theorem completeTile_outstanding (s : State) : (completeTile s).outstanding = s.outstanding := rfl
@[simp] theorem completeTile_pollElapsed (s : State) : (completeTile s).pollElapsed = s.pollElapsed := rfl
@[simp] theorem completeTile_raster (s : State) : (completeTile s).raster = s.raster := rfl
@[simp] theorem completeTile_src (s : State) : (completeTile s).src = s.src := rfl
@[simp] theorem completeTile_srcChanged (s : State) : (completeTile s).srcChanged = s.srcChanged := rfl
@[simp] theorem completeTile_busReply (s : State) : (completeTile s).busReply = s.busReply := rfl
@[simp] theorem completeTile_panelLog (s : State) : (completeTile s).panelLog = s.panelLog := rfl
@[simp] theorem completeTile_resetHeld (s : State) : (completeTile s).resetHeld = s.resetHeld := rfl
@[simp] theorem completeTile_schedule (s : State) : (completeTile s).schedule = s.schedule := rfl
@[simp] theorem completeTile_program (s : State) : (completeTile s).program = s.program := rfl
@[simp] theorem completeTile_freeCount (s : State) : (completeTile s).freeCount = s.freeCount := rfl

/-! ### What the tile engine latches (R140) -/

@[simp] theorem latchTile_cfg (fmt : Format) (bpp : BitVec 3) (a : DitherMode) (s : State) : (latchTile fmt bpp a s).cfg = s.cfg := rfl
@[simp] theorem latchTile_result (fmt : Format) (bpp : BitVec 3) (a : DitherMode) (s : State) : (latchTile fmt bpp a s).result = s.result := rfl
@[simp] theorem latchTile_tileOrigin (fmt : Format) (bpp : BitVec 3) (a : DitherMode) (s : State) : (latchTile fmt bpp a s).tileOrigin = s.tileOrigin := rfl
@[simp] theorem latchTile_tileSize (fmt : Format) (bpp : BitVec 3) (a : DitherMode) (s : State) : (latchTile fmt bpp a s).tileSize = s.tileSize := rfl
@[simp] theorem latchTile_srcAddr (fmt : Format) (bpp : BitVec 3) (a : DitherMode) (s : State) : (latchTile fmt bpp a s).srcAddr = s.srcAddr := rfl
@[simp] theorem latchTile_mode (fmt : Format) (bpp : BitVec 3) (a : DitherMode) (s : State) : (latchTile fmt bpp a s).mode = s.mode := rfl
@[simp] theorem latchTile_lastMode (fmt : Format) (bpp : BitVec 3) (a : DitherMode) (s : State) : (latchTile fmt bpp a s).lastMode = s.lastMode := rfl
@[simp] theorem latchTile_busy (fmt : Format) (bpp : BitVec 3) (a : DitherMode) (s : State) : (latchTile fmt bpp a s).busy = true := rfl
@[simp] theorem latchTile_dirty (fmt : Format) (bpp : BitVec 3) (a : DitherMode) (s : State) : (latchTile fmt bpp a s).dirty = s.dirty := rfl
@[simp] theorem latchTile_errCode (fmt : Format) (bpp : BitVec 3) (a : DitherMode) (s : State) : (latchTile fmt bpp a s).errCode = s.errCode := rfl
@[simp] theorem latchTile_errOverflow (fmt : Format) (bpp : BitVec 3) (a : DitherMode) (s : State) : (latchTile fmt bpp a s).errOverflow = s.errOverflow := rfl
@[simp] theorem latchTile_intStatus (fmt : Format) (bpp : BitVec 3) (a : DitherMode) (s : State) : (latchTile fmt bpp a s).intStatus = s.intStatus := rfl
@[simp] theorem latchTile_intEnable (fmt : Format) (bpp : BitVec 3) (a : DitherMode) (s : State) : (latchTile fmt bpp a s).intEnable = s.intEnable := rfl
@[simp] theorem latchTile_threshold (fmt : Format) (bpp : BitVec 3) (a : DitherMode) (s : State) : (latchTile fmt bpp a s).threshold = s.threshold := rfl
@[simp] theorem latchTile_partialCount (fmt : Format) (bpp : BitVec 3) (a : DitherMode) (s : State) : (latchTile fmt bpp a s).partialCount = s.partialCount := rfl
@[simp] theorem latchTile_accRows (fmt : Format) (bpp : BitVec 3) (a : DitherMode) (s : State) : (latchTile fmt bpp a s).accRows = s.accRows := rfl
@[simp] theorem latchTile_accWidth (fmt : Format) (bpp : BitVec 3) (a : DitherMode) (s : State) : (latchTile fmt bpp a s).accWidth = s.accWidth := rfl
@[simp] theorem latchTile_fallbackCount (fmt : Format) (bpp : BitVec 3) (a : DitherMode) (s : State) : (latchTile fmt bpp a s).fallbackCount = s.fallbackCount := rfl
@[simp] theorem latchTile_panelFailCount (fmt : Format) (bpp : BitVec 3) (a : DitherMode) (s : State) : (latchTile fmt bpp a s).panelFailCount = s.panelFailCount := rfl
@[simp] theorem latchTile_lastFailOp (fmt : Format) (bpp : BitVec 3) (a : DitherMode) (s : State) : (latchTile fmt bpp a s).lastFailOp = s.lastFailOp := rfl
@[simp] theorem latchTile_lastFailPlane (fmt : Format) (bpp : BitVec 3) (a : DitherMode) (s : State) : (latchTile fmt bpp a s).lastFailPlane = s.lastFailPlane := rfl
@[simp] theorem latchTile_lx (fmt : Format) (bpp : BitVec 3) (a : DitherMode) (s : State) : (latchTile fmt bpp a s).lx = tileX s := rfl
@[simp] theorem latchTile_ly (fmt : Format) (bpp : BitVec 3) (a : DitherMode) (s : State) : (latchTile fmt bpp a s).ly = tileY s := rfl
@[simp] theorem latchTile_lw (fmt : Format) (bpp : BitVec 3) (a : DitherMode) (s : State) : (latchTile fmt bpp a s).lw = tileW s := rfl
@[simp] theorem latchTile_lh (fmt : Format) (bpp : BitVec 3) (a : DitherMode) (s : State) : (latchTile fmt bpp a s).lh = tileH s := rfl
@[simp] theorem latchTile_lsrc (fmt : Format) (bpp : BitVec 3) (a : DitherMode) (s : State) : (latchTile fmt bpp a s).lsrc = s.srcAddr := rfl
@[simp] theorem latchTile_lfmt (fmt : Format) (bpp : BitVec 3) (a : DitherMode) (s : State) : (latchTile fmt bpp a s).lfmt = fmt := rfl
@[simp] theorem latchTile_lbpp (fmt : Format) (bpp : BitVec 3) (a : DitherMode) (s : State) : (latchTile fmt bpp a s).lbpp = bpp := rfl
@[simp] theorem latchTile_algo (fmt : Format) (bpp : BitVec 3) (a : DitherMode) (s : State) : (latchTile fmt bpp a s).algo = a := rfl
@[simp] theorem latchTile_curR (fmt : Format) (bpp : BitVec 3) (a : DitherMode) (s : State) : (latchTile fmt bpp a s).curR = 0 := rfl
@[simp] theorem latchTile_curC (fmt : Format) (bpp : BitVec 3) (a : DitherMode) (s : State) : (latchTile fmt bpp a s).curC = 0 := rfl
@[simp] theorem latchTile_acc (fmt : Format) (bpp : BitVec 3) (a : DitherMode) (s : State) : (latchTile fmt bpp a s).acc = clearForTile a (tileW s).toNat s.acc := rfl
@[simp] theorem latchTile_schedState (fmt : Format) (bpp : BitVec 3) (a : DitherMode) (s : State) : (latchTile fmt bpp a s).schedState = s.schedState := rfl
@[simp] theorem latchTile_schedPhase (fmt : Format) (bpp : BitVec 3) (a : DitherMode) (s : State) : (latchTile fmt bpp a s).schedPhase = s.schedPhase := rfl
@[simp] theorem latchTile_plane (fmt : Format) (bpp : BitVec 3) (a : DitherMode) (s : State) : (latchTile fmt bpp a s).plane = s.plane := rfl
@[simp] theorem latchTile_lut (fmt : Format) (bpp : BitVec 3) (a : DitherMode) (s : State) : (latchTile fmt bpp a s).lut = s.lut := rfl
@[simp] theorem latchTile_drawIndex (fmt : Format) (bpp : BitVec 3) (a : DitherMode) (s : State) : (latchTile fmt bpp a s).drawIndex = s.drawIndex := rfl
@[simp] theorem latchTile_drawBuf (fmt : Format) (bpp : BitVec 3) (a : DitherMode) (s : State) : (latchTile fmt bpp a s).drawBuf = s.drawBuf := rfl
@[simp] theorem latchTile_outstanding (fmt : Format) (bpp : BitVec 3) (a : DitherMode) (s : State) : (latchTile fmt bpp a s).outstanding = s.outstanding := rfl
@[simp] theorem latchTile_pollElapsed (fmt : Format) (bpp : BitVec 3) (a : DitherMode) (s : State) : (latchTile fmt bpp a s).pollElapsed = s.pollElapsed := rfl
@[simp] theorem latchTile_raster (fmt : Format) (bpp : BitVec 3) (a : DitherMode) (s : State) : (latchTile fmt bpp a s).raster = s.raster := rfl
@[simp] theorem latchTile_src (fmt : Format) (bpp : BitVec 3) (a : DitherMode) (s : State) : (latchTile fmt bpp a s).src = s.src := rfl
@[simp] theorem latchTile_srcChanged (fmt : Format) (bpp : BitVec 3) (a : DitherMode) (s : State) : (latchTile fmt bpp a s).srcChanged = [] := rfl
@[simp] theorem latchTile_busReply (fmt : Format) (bpp : BitVec 3) (a : DitherMode) (s : State) : (latchTile fmt bpp a s).busReply = s.busReply := rfl
@[simp] theorem latchTile_panelLog (fmt : Format) (bpp : BitVec 3) (a : DitherMode) (s : State) : (latchTile fmt bpp a s).panelLog = s.panelLog := rfl
@[simp] theorem latchTile_resetHeld (fmt : Format) (bpp : BitVec 3) (a : DitherMode) (s : State) : (latchTile fmt bpp a s).resetHeld = s.resetHeld := rfl
@[simp] theorem latchTile_schedule (fmt : Format) (bpp : BitVec 3) (a : DitherMode) (s : State) : (latchTile fmt bpp a s).schedule = s.schedule := rfl
@[simp] theorem latchTile_program (fmt : Format) (bpp : BitVec 3) (a : DitherMode) (s : State) : (latchTile fmt bpp a s).program = s.program := rfl
@[simp] theorem latchTile_freeCount (fmt : Format) (bpp : BitVec 3) (a : DitherMode) (s : State) : (latchTile fmt bpp a s).freeCount = s.freeCount := rfl

/-! ### A panel request issued (R207) -/

@[simp] theorem issueRequest_cfg (q : PanelRequest) (s : State) : (issueRequest q s).cfg = s.cfg := rfl
@[simp] theorem issueRequest_result (q : PanelRequest) (s : State) : (issueRequest q s).result = s.result := rfl
@[simp] theorem issueRequest_tileOrigin (q : PanelRequest) (s : State) : (issueRequest q s).tileOrigin = s.tileOrigin := rfl
@[simp] theorem issueRequest_tileSize (q : PanelRequest) (s : State) : (issueRequest q s).tileSize = s.tileSize := rfl
@[simp] theorem issueRequest_srcAddr (q : PanelRequest) (s : State) : (issueRequest q s).srcAddr = s.srcAddr := rfl
@[simp] theorem issueRequest_mode (q : PanelRequest) (s : State) : (issueRequest q s).mode = s.mode := rfl
@[simp] theorem issueRequest_lastMode (q : PanelRequest) (s : State) : (issueRequest q s).lastMode = s.lastMode := rfl
@[simp] theorem issueRequest_busy (q : PanelRequest) (s : State) : (issueRequest q s).busy = s.busy := rfl
@[simp] theorem issueRequest_dirty (q : PanelRequest) (s : State) : (issueRequest q s).dirty = s.dirty := rfl
@[simp] theorem issueRequest_errCode (q : PanelRequest) (s : State) : (issueRequest q s).errCode = s.errCode := rfl
@[simp] theorem issueRequest_errOverflow (q : PanelRequest) (s : State) : (issueRequest q s).errOverflow = s.errOverflow := rfl
@[simp] theorem issueRequest_intStatus (q : PanelRequest) (s : State) : (issueRequest q s).intStatus = s.intStatus := rfl
@[simp] theorem issueRequest_intEnable (q : PanelRequest) (s : State) : (issueRequest q s).intEnable = s.intEnable := rfl
@[simp] theorem issueRequest_threshold (q : PanelRequest) (s : State) : (issueRequest q s).threshold = s.threshold := rfl
@[simp] theorem issueRequest_partialCount (q : PanelRequest) (s : State) : (issueRequest q s).partialCount = s.partialCount := rfl
@[simp] theorem issueRequest_accRows (q : PanelRequest) (s : State) : (issueRequest q s).accRows = s.accRows := rfl
@[simp] theorem issueRequest_accWidth (q : PanelRequest) (s : State) : (issueRequest q s).accWidth = s.accWidth := rfl
@[simp] theorem issueRequest_fallbackCount (q : PanelRequest) (s : State) : (issueRequest q s).fallbackCount = s.fallbackCount := rfl
@[simp] theorem issueRequest_panelFailCount (q : PanelRequest) (s : State) : (issueRequest q s).panelFailCount = s.panelFailCount := rfl
@[simp] theorem issueRequest_lastFailOp (q : PanelRequest) (s : State) : (issueRequest q s).lastFailOp = s.lastFailOp := rfl
@[simp] theorem issueRequest_lastFailPlane (q : PanelRequest) (s : State) : (issueRequest q s).lastFailPlane = s.lastFailPlane := rfl
@[simp] theorem issueRequest_lx (q : PanelRequest) (s : State) : (issueRequest q s).lx = s.lx := rfl
@[simp] theorem issueRequest_ly (q : PanelRequest) (s : State) : (issueRequest q s).ly = s.ly := rfl
@[simp] theorem issueRequest_lw (q : PanelRequest) (s : State) : (issueRequest q s).lw = s.lw := rfl
@[simp] theorem issueRequest_lh (q : PanelRequest) (s : State) : (issueRequest q s).lh = s.lh := rfl
@[simp] theorem issueRequest_lsrc (q : PanelRequest) (s : State) : (issueRequest q s).lsrc = s.lsrc := rfl
@[simp] theorem issueRequest_lfmt (q : PanelRequest) (s : State) : (issueRequest q s).lfmt = s.lfmt := rfl
@[simp] theorem issueRequest_lbpp (q : PanelRequest) (s : State) : (issueRequest q s).lbpp = s.lbpp := rfl
@[simp] theorem issueRequest_algo (q : PanelRequest) (s : State) : (issueRequest q s).algo = s.algo := rfl
@[simp] theorem issueRequest_curR (q : PanelRequest) (s : State) : (issueRequest q s).curR = s.curR := rfl
@[simp] theorem issueRequest_curC (q : PanelRequest) (s : State) : (issueRequest q s).curC = s.curC := rfl
@[simp] theorem issueRequest_acc (q : PanelRequest) (s : State) : (issueRequest q s).acc = s.acc := rfl
@[simp] theorem issueRequest_schedState (q : PanelRequest) (s : State) : (issueRequest q s).schedState = s.schedState := rfl
@[simp] theorem issueRequest_schedPhase (q : PanelRequest) (s : State) : (issueRequest q s).schedPhase = s.schedPhase := rfl
@[simp] theorem issueRequest_plane (q : PanelRequest) (s : State) : (issueRequest q s).plane = s.plane := rfl
@[simp] theorem issueRequest_lut (q : PanelRequest) (s : State) : (issueRequest q s).lut = s.lut := rfl
@[simp] theorem issueRequest_drawIndex (q : PanelRequest) (s : State) : (issueRequest q s).drawIndex = s.drawIndex := rfl
@[simp] theorem issueRequest_drawBuf (q : PanelRequest) (s : State) : (issueRequest q s).drawBuf = s.drawBuf := rfl
@[simp] theorem issueRequest_outstanding (q : PanelRequest) (s : State) : (issueRequest q s).outstanding = some (requestOp q) := rfl
@[simp] theorem issueRequest_pollElapsed (q : PanelRequest) (s : State) : (issueRequest q s).pollElapsed = s.pollElapsed := rfl
@[simp] theorem issueRequest_raster (q : PanelRequest) (s : State) : (issueRequest q s).raster = s.raster := rfl
@[simp] theorem issueRequest_src (q : PanelRequest) (s : State) : (issueRequest q s).src = s.src := rfl
@[simp] theorem issueRequest_srcChanged (q : PanelRequest) (s : State) : (issueRequest q s).srcChanged = s.srcChanged := rfl
@[simp] theorem issueRequest_busReply (q : PanelRequest) (s : State) : (issueRequest q s).busReply = s.busReply := rfl
@[simp] theorem issueRequest_panelLog (q : PanelRequest) (s : State) : (issueRequest q s).panelLog = s.panelLog ++ [q] := rfl
@[simp] theorem issueRequest_resetHeld (q : PanelRequest) (s : State) : (issueRequest q s).resetHeld = s.resetHeld := rfl
@[simp] theorem issueRequest_schedule (q : PanelRequest) (s : State) : (issueRequest q s).schedule = s.schedule := rfl
@[simp] theorem issueRequest_program (q : PanelRequest) (s : State) : (issueRequest q s).program = s.program := rfl
@[simp] theorem issueRequest_freeCount (q : PanelRequest) (s : State) : (issueRequest q s).freeCount = s.freeCount := rfl

/-! ### The scheduler back in IDLE (R212, R213) -/

@[simp] theorem toIdle_cfg (s : State) : (toIdle s).cfg = s.cfg := rfl
@[simp] theorem toIdle_result (s : State) : (toIdle s).result = s.result := rfl
@[simp] theorem toIdle_tileOrigin (s : State) : (toIdle s).tileOrigin = s.tileOrigin := rfl
@[simp] theorem toIdle_tileSize (s : State) : (toIdle s).tileSize = s.tileSize := rfl
@[simp] theorem toIdle_srcAddr (s : State) : (toIdle s).srcAddr = s.srcAddr := rfl
@[simp] theorem toIdle_mode (s : State) : (toIdle s).mode = s.mode := rfl
@[simp] theorem toIdle_lastMode (s : State) : (toIdle s).lastMode = s.lastMode := rfl
@[simp] theorem toIdle_busy (s : State) : (toIdle s).busy = s.busy := rfl
@[simp] theorem toIdle_dirty (s : State) : (toIdle s).dirty = s.dirty := rfl
@[simp] theorem toIdle_errCode (s : State) : (toIdle s).errCode = s.errCode := rfl
@[simp] theorem toIdle_errOverflow (s : State) : (toIdle s).errOverflow = s.errOverflow := rfl
@[simp] theorem toIdle_intStatus (s : State) : (toIdle s).intStatus = s.intStatus := rfl
@[simp] theorem toIdle_intEnable (s : State) : (toIdle s).intEnable = s.intEnable := rfl
@[simp] theorem toIdle_threshold (s : State) : (toIdle s).threshold = s.threshold := rfl
@[simp] theorem toIdle_partialCount (s : State) : (toIdle s).partialCount = s.partialCount := rfl
@[simp] theorem toIdle_accRows (s : State) : (toIdle s).accRows = s.accRows := rfl
@[simp] theorem toIdle_accWidth (s : State) : (toIdle s).accWidth = s.accWidth := rfl
@[simp] theorem toIdle_fallbackCount (s : State) : (toIdle s).fallbackCount = s.fallbackCount := rfl
@[simp] theorem toIdle_panelFailCount (s : State) : (toIdle s).panelFailCount = s.panelFailCount := rfl
@[simp] theorem toIdle_lastFailOp (s : State) : (toIdle s).lastFailOp = s.lastFailOp := rfl
@[simp] theorem toIdle_lastFailPlane (s : State) : (toIdle s).lastFailPlane = s.lastFailPlane := rfl
@[simp] theorem toIdle_lx (s : State) : (toIdle s).lx = s.lx := rfl
@[simp] theorem toIdle_ly (s : State) : (toIdle s).ly = s.ly := rfl
@[simp] theorem toIdle_lw (s : State) : (toIdle s).lw = s.lw := rfl
@[simp] theorem toIdle_lh (s : State) : (toIdle s).lh = s.lh := rfl
@[simp] theorem toIdle_lsrc (s : State) : (toIdle s).lsrc = s.lsrc := rfl
@[simp] theorem toIdle_lfmt (s : State) : (toIdle s).lfmt = s.lfmt := rfl
@[simp] theorem toIdle_lbpp (s : State) : (toIdle s).lbpp = s.lbpp := rfl
@[simp] theorem toIdle_algo (s : State) : (toIdle s).algo = s.algo := rfl
@[simp] theorem toIdle_curR (s : State) : (toIdle s).curR = s.curR := rfl
@[simp] theorem toIdle_curC (s : State) : (toIdle s).curC = s.curC := rfl
@[simp] theorem toIdle_acc (s : State) : (toIdle s).acc = s.acc := rfl
@[simp] theorem toIdle_schedState (s : State) : (toIdle s).schedState = .idle := rfl
@[simp] theorem toIdle_schedPhase (s : State) : (toIdle s).schedPhase = .none := rfl
@[simp] theorem toIdle_plane (s : State) : (toIdle s).plane = 0 := rfl
@[simp] theorem toIdle_lut (s : State) : (toIdle s).lut = s.lut := rfl
@[simp] theorem toIdle_drawIndex (s : State) : (toIdle s).drawIndex = s.drawIndex := rfl
@[simp] theorem toIdle_drawBuf (s : State) : (toIdle s).drawBuf = s.drawBuf := rfl
@[simp] theorem toIdle_outstanding (s : State) : (toIdle s).outstanding = s.outstanding := rfl
@[simp] theorem toIdle_pollElapsed (s : State) : (toIdle s).pollElapsed = s.pollElapsed := rfl
@[simp] theorem toIdle_raster (s : State) : (toIdle s).raster = s.raster := rfl
@[simp] theorem toIdle_src (s : State) : (toIdle s).src = s.src := rfl
@[simp] theorem toIdle_srcChanged (s : State) : (toIdle s).srcChanged = s.srcChanged := rfl
@[simp] theorem toIdle_busReply (s : State) : (toIdle s).busReply = s.busReply := rfl
@[simp] theorem toIdle_panelLog (s : State) : (toIdle s).panelLog = s.panelLog := rfl
@[simp] theorem toIdle_resetHeld (s : State) : (toIdle s).resetHeld = s.resetHeld := rfl
@[simp] theorem toIdle_schedule (s : State) : (toIdle s).schedule = s.schedule := rfl
@[simp] theorem toIdle_program (s : State) : (toIdle s).program = s.program := rfl
@[simp] theorem toIdle_freeCount (s : State) : (toIdle s).freeCount = s.freeCount := rfl

/-! ### PixelWrite (R181) -/

@[simp] theorem pixelWrite_cfg (x y : Nat) (dark : Bool) (s : State) : (pixelWrite x y dark s).cfg = s.cfg := rfl
@[simp] theorem pixelWrite_result (x y : Nat) (dark : Bool) (s : State) : (pixelWrite x y dark s).result = s.result := rfl
@[simp] theorem pixelWrite_tileOrigin (x y : Nat) (dark : Bool) (s : State) : (pixelWrite x y dark s).tileOrigin = s.tileOrigin := rfl
@[simp] theorem pixelWrite_tileSize (x y : Nat) (dark : Bool) (s : State) : (pixelWrite x y dark s).tileSize = s.tileSize := rfl
@[simp] theorem pixelWrite_srcAddr (x y : Nat) (dark : Bool) (s : State) : (pixelWrite x y dark s).srcAddr = s.srcAddr := rfl
@[simp] theorem pixelWrite_mode (x y : Nat) (dark : Bool) (s : State) : (pixelWrite x y dark s).mode = s.mode := rfl
@[simp] theorem pixelWrite_lastMode (x y : Nat) (dark : Bool) (s : State) : (pixelWrite x y dark s).lastMode = s.lastMode := rfl
@[simp] theorem pixelWrite_busy (x y : Nat) (dark : Bool) (s : State) : (pixelWrite x y dark s).busy = s.busy := rfl
@[simp] theorem pixelWrite_dirty (x y : Nat) (dark : Bool) (s : State) : (pixelWrite x y dark s).dirty = s.dirty := rfl
@[simp] theorem pixelWrite_errCode (x y : Nat) (dark : Bool) (s : State) : (pixelWrite x y dark s).errCode = s.errCode := rfl
@[simp] theorem pixelWrite_errOverflow (x y : Nat) (dark : Bool) (s : State) : (pixelWrite x y dark s).errOverflow = s.errOverflow := rfl
@[simp] theorem pixelWrite_intStatus (x y : Nat) (dark : Bool) (s : State) : (pixelWrite x y dark s).intStatus = s.intStatus := rfl
@[simp] theorem pixelWrite_intEnable (x y : Nat) (dark : Bool) (s : State) : (pixelWrite x y dark s).intEnable = s.intEnable := rfl
@[simp] theorem pixelWrite_threshold (x y : Nat) (dark : Bool) (s : State) : (pixelWrite x y dark s).threshold = s.threshold := rfl
@[simp] theorem pixelWrite_partialCount (x y : Nat) (dark : Bool) (s : State) : (pixelWrite x y dark s).partialCount = s.partialCount := rfl
@[simp] theorem pixelWrite_accRows (x y : Nat) (dark : Bool) (s : State) : (pixelWrite x y dark s).accRows = s.accRows := rfl
@[simp] theorem pixelWrite_accWidth (x y : Nat) (dark : Bool) (s : State) : (pixelWrite x y dark s).accWidth = s.accWidth := rfl
@[simp] theorem pixelWrite_fallbackCount (x y : Nat) (dark : Bool) (s : State) : (pixelWrite x y dark s).fallbackCount = s.fallbackCount := rfl
@[simp] theorem pixelWrite_panelFailCount (x y : Nat) (dark : Bool) (s : State) : (pixelWrite x y dark s).panelFailCount = s.panelFailCount := rfl
@[simp] theorem pixelWrite_lastFailOp (x y : Nat) (dark : Bool) (s : State) : (pixelWrite x y dark s).lastFailOp = s.lastFailOp := rfl
@[simp] theorem pixelWrite_lastFailPlane (x y : Nat) (dark : Bool) (s : State) : (pixelWrite x y dark s).lastFailPlane = s.lastFailPlane := rfl
@[simp] theorem pixelWrite_lx (x y : Nat) (dark : Bool) (s : State) : (pixelWrite x y dark s).lx = s.lx := rfl
@[simp] theorem pixelWrite_ly (x y : Nat) (dark : Bool) (s : State) : (pixelWrite x y dark s).ly = s.ly := rfl
@[simp] theorem pixelWrite_lw (x y : Nat) (dark : Bool) (s : State) : (pixelWrite x y dark s).lw = s.lw := rfl
@[simp] theorem pixelWrite_lh (x y : Nat) (dark : Bool) (s : State) : (pixelWrite x y dark s).lh = s.lh := rfl
@[simp] theorem pixelWrite_lsrc (x y : Nat) (dark : Bool) (s : State) : (pixelWrite x y dark s).lsrc = s.lsrc := rfl
@[simp] theorem pixelWrite_lfmt (x y : Nat) (dark : Bool) (s : State) : (pixelWrite x y dark s).lfmt = s.lfmt := rfl
@[simp] theorem pixelWrite_lbpp (x y : Nat) (dark : Bool) (s : State) : (pixelWrite x y dark s).lbpp = s.lbpp := rfl
@[simp] theorem pixelWrite_algo (x y : Nat) (dark : Bool) (s : State) : (pixelWrite x y dark s).algo = s.algo := rfl
@[simp] theorem pixelWrite_curR (x y : Nat) (dark : Bool) (s : State) : (pixelWrite x y dark s).curR = s.curR := rfl
@[simp] theorem pixelWrite_curC (x y : Nat) (dark : Bool) (s : State) : (pixelWrite x y dark s).curC = s.curC := rfl
@[simp] theorem pixelWrite_acc (x y : Nat) (dark : Bool) (s : State) : (pixelWrite x y dark s).acc = s.acc := rfl
@[simp] theorem pixelWrite_schedState (x y : Nat) (dark : Bool) (s : State) : (pixelWrite x y dark s).schedState = s.schedState := rfl
@[simp] theorem pixelWrite_schedPhase (x y : Nat) (dark : Bool) (s : State) : (pixelWrite x y dark s).schedPhase = s.schedPhase := rfl
@[simp] theorem pixelWrite_plane (x y : Nat) (dark : Bool) (s : State) : (pixelWrite x y dark s).plane = s.plane := rfl
@[simp] theorem pixelWrite_lut (x y : Nat) (dark : Bool) (s : State) : (pixelWrite x y dark s).lut = s.lut := rfl
@[simp] theorem pixelWrite_drawIndex (x y : Nat) (dark : Bool) (s : State) : (pixelWrite x y dark s).drawIndex = s.drawIndex := rfl
@[simp] theorem pixelWrite_drawBuf (x y : Nat) (dark : Bool) (s : State) : (pixelWrite x y dark s).drawBuf = s.drawBuf := rfl
@[simp] theorem pixelWrite_outstanding (x y : Nat) (dark : Bool) (s : State) : (pixelWrite x y dark s).outstanding = s.outstanding := rfl
@[simp] theorem pixelWrite_pollElapsed (x y : Nat) (dark : Bool) (s : State) : (pixelWrite x y dark s).pollElapsed = s.pollElapsed := rfl
@[simp] theorem pixelWrite_raster (x y : Nat) (dark : Bool) (s : State) : (pixelWrite x y dark s).raster = Memory.write rasterUnlisted s.raster (byteIndex s.cfg x y)
      (putBit (rasterRead s (byteIndex s.cfg x y)) (bitIndex x) dark) := rfl
@[simp] theorem pixelWrite_src (x y : Nat) (dark : Bool) (s : State) : (pixelWrite x y dark s).src = s.src := rfl
@[simp] theorem pixelWrite_srcChanged (x y : Nat) (dark : Bool) (s : State) : (pixelWrite x y dark s).srcChanged = s.srcChanged := rfl
@[simp] theorem pixelWrite_busReply (x y : Nat) (dark : Bool) (s : State) : (pixelWrite x y dark s).busReply = s.busReply := rfl
@[simp] theorem pixelWrite_panelLog (x y : Nat) (dark : Bool) (s : State) : (pixelWrite x y dark s).panelLog = s.panelLog := rfl
@[simp] theorem pixelWrite_resetHeld (x y : Nat) (dark : Bool) (s : State) : (pixelWrite x y dark s).resetHeld = s.resetHeld := rfl
@[simp] theorem pixelWrite_schedule (x y : Nat) (dark : Bool) (s : State) : (pixelWrite x y dark s).schedule = s.schedule := rfl
@[simp] theorem pixelWrite_program (x y : Nat) (dark : Bool) (s : State) : (pixelWrite x y dark s).program = s.program := rfl
@[simp] theorem pixelWrite_freeCount (x y : Nat) (dark : Bool) (s : State) : (pixelWrite x y dark s).freeCount = s.freeCount := rfl

/-! ### The cursor moves on (R150) -/

@[simp] theorem advanceCursor_cfg (s : State) : (advanceCursor s).cfg = s.cfg := rfl
@[simp] theorem advanceCursor_result (s : State) : (advanceCursor s).result = s.result := rfl
@[simp] theorem advanceCursor_tileOrigin (s : State) : (advanceCursor s).tileOrigin = s.tileOrigin := rfl
@[simp] theorem advanceCursor_tileSize (s : State) : (advanceCursor s).tileSize = s.tileSize := rfl
@[simp] theorem advanceCursor_srcAddr (s : State) : (advanceCursor s).srcAddr = s.srcAddr := rfl
@[simp] theorem advanceCursor_mode (s : State) : (advanceCursor s).mode = s.mode := rfl
@[simp] theorem advanceCursor_lastMode (s : State) : (advanceCursor s).lastMode = s.lastMode := rfl
@[simp] theorem advanceCursor_busy (s : State) : (advanceCursor s).busy = s.busy := rfl
@[simp] theorem advanceCursor_dirty (s : State) : (advanceCursor s).dirty = s.dirty := rfl
@[simp] theorem advanceCursor_errCode (s : State) : (advanceCursor s).errCode = s.errCode := rfl
@[simp] theorem advanceCursor_errOverflow (s : State) : (advanceCursor s).errOverflow = s.errOverflow := rfl
@[simp] theorem advanceCursor_intStatus (s : State) : (advanceCursor s).intStatus = s.intStatus := rfl
@[simp] theorem advanceCursor_intEnable (s : State) : (advanceCursor s).intEnable = s.intEnable := rfl
@[simp] theorem advanceCursor_threshold (s : State) : (advanceCursor s).threshold = s.threshold := rfl
@[simp] theorem advanceCursor_partialCount (s : State) : (advanceCursor s).partialCount = s.partialCount := rfl
@[simp] theorem advanceCursor_accRows (s : State) : (advanceCursor s).accRows = s.accRows := rfl
@[simp] theorem advanceCursor_accWidth (s : State) : (advanceCursor s).accWidth = s.accWidth := rfl
@[simp] theorem advanceCursor_fallbackCount (s : State) : (advanceCursor s).fallbackCount = s.fallbackCount := rfl
@[simp] theorem advanceCursor_panelFailCount (s : State) : (advanceCursor s).panelFailCount = s.panelFailCount := rfl
@[simp] theorem advanceCursor_lastFailOp (s : State) : (advanceCursor s).lastFailOp = s.lastFailOp := rfl
@[simp] theorem advanceCursor_lastFailPlane (s : State) : (advanceCursor s).lastFailPlane = s.lastFailPlane := rfl
@[simp] theorem advanceCursor_lx (s : State) : (advanceCursor s).lx = s.lx := rfl
@[simp] theorem advanceCursor_ly (s : State) : (advanceCursor s).ly = s.ly := rfl
@[simp] theorem advanceCursor_lw (s : State) : (advanceCursor s).lw = s.lw := rfl
@[simp] theorem advanceCursor_lh (s : State) : (advanceCursor s).lh = s.lh := rfl
@[simp] theorem advanceCursor_lsrc (s : State) : (advanceCursor s).lsrc = s.lsrc := rfl
@[simp] theorem advanceCursor_lfmt (s : State) : (advanceCursor s).lfmt = s.lfmt := rfl
@[simp] theorem advanceCursor_lbpp (s : State) : (advanceCursor s).lbpp = s.lbpp := rfl
@[simp] theorem advanceCursor_algo (s : State) : (advanceCursor s).algo = s.algo := rfl
@[simp] theorem advanceCursor_curR (s : State) : (advanceCursor s).curR = if rowDone s then s.curR + 1 else s.curR := rfl
@[simp] theorem advanceCursor_curC (s : State) : (advanceCursor s).curC = if rowDone s then 0 else s.curC + 1 := rfl
@[simp] theorem advanceCursor_acc (s : State) : (advanceCursor s).acc = if startsRow s then rowStart s.algo s.lw.toNat (s.curR + 1) s.acc else s.acc := rfl
@[simp] theorem advanceCursor_schedState (s : State) : (advanceCursor s).schedState = s.schedState := rfl
@[simp] theorem advanceCursor_schedPhase (s : State) : (advanceCursor s).schedPhase = s.schedPhase := rfl
@[simp] theorem advanceCursor_plane (s : State) : (advanceCursor s).plane = s.plane := rfl
@[simp] theorem advanceCursor_lut (s : State) : (advanceCursor s).lut = s.lut := rfl
@[simp] theorem advanceCursor_drawIndex (s : State) : (advanceCursor s).drawIndex = s.drawIndex := rfl
@[simp] theorem advanceCursor_drawBuf (s : State) : (advanceCursor s).drawBuf = s.drawBuf := rfl
@[simp] theorem advanceCursor_outstanding (s : State) : (advanceCursor s).outstanding = s.outstanding := rfl
@[simp] theorem advanceCursor_pollElapsed (s : State) : (advanceCursor s).pollElapsed = s.pollElapsed := rfl
@[simp] theorem advanceCursor_raster (s : State) : (advanceCursor s).raster = s.raster := rfl
@[simp] theorem advanceCursor_src (s : State) : (advanceCursor s).src = s.src := rfl
@[simp] theorem advanceCursor_srcChanged (s : State) : (advanceCursor s).srcChanged = s.srcChanged := rfl
@[simp] theorem advanceCursor_busReply (s : State) : (advanceCursor s).busReply = s.busReply := rfl
@[simp] theorem advanceCursor_panelLog (s : State) : (advanceCursor s).panelLog = s.panelLog := rfl
@[simp] theorem advanceCursor_resetHeld (s : State) : (advanceCursor s).resetHeld = s.resetHeld := rfl
@[simp] theorem advanceCursor_schedule (s : State) : (advanceCursor s).schedule = s.schedule := rfl
@[simp] theorem advanceCursor_program (s : State) : (advanceCursor s).program = s.program := rfl
@[simp] theorem advanceCursor_freeCount (s : State) : (advanceCursor s).freeCount = s.freeCount := rfl

end Sys2Proof.Machine
end

