-- ==== Sys2Proof/Laws/Ops.lean ====
section
/-! SUPPORT. One lemma for each shared operation: everything it can do. -/

namespace Sys2Proof.Machine

/-! ### Rejection -/

theorem unlessBusy_busy {f : State → State} {s : State} (h : s.busy = true) :
    unlessBusy f s = raiseCmdError .busy s := by simp [unlessBusy, h]

theorem unlessBusy_ready {f : State → State} {s : State} (h : s.busy = false) : unlessBusy f s = f s := by
  simp [unlessBusy, h]

/-- A command is turned away with BUSY or has its effect. -/
theorem unlessBusy_cases (f : State → State) (s : State) :
    (s.busy = true ∧ unlessBusy f s = raiseCmdError .busy s) ∨ (s.busy = false ∧ unlessBusy f s = f s) := by
  cases h : s.busy
  · exact .inr ⟨rfl, unlessBusy_ready h⟩
  · exact .inl ⟨rfl, unlessBusy_busy h⟩

/-! ### The raster -/

theorem rasterRead_rasterWrite_same {s : State} {n i : Nat} {v : Byte} (h : Memory.wf rasterUnlisted n s.raster) :
    rasterRead (rasterWrite i v s) i = v := by
  simp [rasterRead, Memory.read_write_same _ n _ _ _ h]

theorem rasterRead_rasterWrite_other {s : State} {n i j : Nat} {v : Byte} (h : Memory.wf rasterUnlisted n s.raster)
    (hij : i ≠ j) : rasterRead (rasterWrite i v s) j = rasterRead s j := by
  simp [rasterRead, Memory.read_write_other _ n _ _ _ _ h hij]

/-- The pixel write is one raster write. -/
theorem pixelWrite_eq (x y : Nat) (dark : Bool) (s : State) :
    pixelWrite x y dark s =
      rasterWrite (byteIndex s.cfg x y) (putBit (rasterRead s (byteIndex s.cfg x y)) (bitIndex x) dark) s := rfl

/-! ### The source memory -/

/-- A source read changes nothing but the counter of free values. -/
theorem srcRead_state (a : Nat) (s : State) : ∃ n, (srcRead a s).2 = { s with freeCount := n } := by
  unfold srcRead
  split
  · exact ⟨s.freeCount + 1, rfl⟩
  · exact ⟨s.freeCount, rfl⟩

/-- A byte the host has not changed since the command started reads as the host left it (R67). -/
theorem srcRead_unchanged {a : Nat} {s : State} (h : a ∉ s.srcChanged) : srcRead a s = (sourceByte s a, s) := by
  simp [srcRead, h]

/-! ### The accumulators -/

@[simp] theorem AccFile.add_row0 (f : AccFile) (j i : Nat) (v : Int) :
    (f.add j i v).row0.length = f.row0.length := by
  unfold AccFile.add AccFile.setRow; split <;> simp_all [AccFile.row]

@[simp] theorem AccFile.add_row1 (f : AccFile) (j i : Nat) (v : Int) :
    (f.add j i v).row1.length = f.row1.length := by
  unfold AccFile.add AccFile.setRow; split <;> simp_all [AccFile.row]

@[simp] theorem AccFile.add_row2 (f : AccFile) (j i : Nat) (v : Int) :
    (f.add j i v).row2.length = f.row2.length := by
  unfold AccFile.add AccFile.setRow; split <;> simp_all [AccFile.row]

@[simp] theorem zeroCells_length (n : Nat) (cells : List Cell) : (zeroCells n cells).length = cells.length := by
  simp [zeroCells]; omega

@[simp] theorem AccFile.zeroRow_row0 (f : AccFile) (j n : Nat) : (f.zeroRow j n).row0.length = f.row0.length := by
  unfold AccFile.zeroRow AccFile.setRow; split <;> simp_all [AccFile.row]

@[simp] theorem AccFile.zeroRow_row1 (f : AccFile) (j n : Nat) : (f.zeroRow j n).row1.length = f.row1.length := by
  unfold AccFile.zeroRow AccFile.setRow; split <;> simp_all [AccFile.row]

@[simp] theorem AccFile.zeroRow_row2 (f : AccFile) (j n : Nat) : (f.zeroRow j n).row2.length = f.row2.length := by
  unfold AccFile.zeroRow AccFile.setRow; split <;> simp_all [AccFile.row]

/-- Two files whose rows have the same lengths. -/
def AccFile.sameShape (f g : AccFile) : Prop :=
  f.row0.length = g.row0.length ∧ f.row1.length = g.row1.length ∧ f.row2.length = g.row2.length

theorem zeroRows_sameShape (f : AccFile) (rows n : Nat) : (f.zeroRows rows n).sameShape f := by
  induction rows with
  | zero => exact ⟨rfl, rfl, rfl⟩
  | succ rows ih => simpa [AccFile.zeroRows, AccFile.sameShape] using ih

theorem clearForTile_sameShape (a : DitherMode) (w : Nat) (f : AccFile) : (clearForTile a w f).sameShape f := by
  unfold clearForTile
  split
  · exact zeroRows_sameShape _ _ _
  · exact ⟨rfl, rfl, rfl⟩

theorem diffuse_sameShape (a : DitherMode) (r c : Nat) (err : Int) (f : AccFile) :
    (diffuse a r c err f).sameShape f := by
  unfold diffuse
  generalize modeKernel a = k
  induction k generalizing f with
  | nil => exact ⟨rfl, rfl, rfl⟩
  | cons n k ih => simpa [AccFile.sameShape, contribute] using ih (contribute (modeRows a) (modeShift a) r c err f n)

theorem ditherPixel_sameShape (a : DitherMode) (p : Params) (l : Byte) (x y r c : Nat) (f : AccFile) :
    (ditherPixel a p l x y r c f).2.sameShape f := by
  cases a
  · exact ⟨rfl, rfl, rfl⟩
  · exact ⟨rfl, rfl, rfl⟩
  · exact diffuse_sameShape _ _ _ _ _
  · exact diffuse_sameShape _ _ _ _ _

theorem rowStart_sameShape (a : DitherMode) (w r : Nat) (f : AccFile) : (rowStart a w r f).sameShape f := by
  simp [rowStart, AccFile.sameShape]

/-! ### Acceptance of a tile -/

/-- Allocation reuses the buffers, recreates them, or falls back to DISABLED (R142, R143). -/
theorem allocate_cases (m : DitherMode) (w : Nat) (s : State) :
    (canReuse m w s = true ∧ allocate m w s = (m, s)) ∨
    (w + modePad m ≤ s.cfg.accRowCells ∧
      allocate m w s =
        (m, { s with accRows := BitVec.ofNat 2 (modeRows m), accWidth := BitVec.ofNat 16 (w + modePad m) })) ∨
    (s.cfg.accRowCells < w + modePad m ∧
      allocate m w s =
        (.disabled, { s with
          accRows := 0
          accWidth := 0
          fallbackCount := s.fallbackCount + 1
          intStatus := s.intStatus ||| causeFallback })) := by
  unfold allocate
  split_ifs with h1 h2
  · exact .inl ⟨h1, rfl⟩
  · exact .inr (.inl ⟨h2, rfl⟩)
  · exact .inr (.inr ⟨by omega, rfl⟩)

/-- In a stateless mode nothing is allocated (R140). -/
theorem chooseAlgo_stateless {s : State} (w : Nat) (h : diffuses s.mode = false) : chooseAlgo w s = (s.mode, s) := by
  simp [chooseAlgo, h]

theorem chooseAlgo_diffusing {s : State} (w : Nat) (h : diffuses s.mode = true) :
    chooseAlgo w s = allocate s.mode w s := by
  simp [chooseAlgo, h]

/-- SET_MODE's effect: nothing for the current mode, else the buffers go and the mode is recorded (R130). -/
theorem setModeEffect_cases (m : DitherMode) (s : State) :
    (m = s.mode ∧ setModeEffect m s = s) ∨
    (m ≠ s.mode ∧ setModeEffect m s =
      { s with accRows := 0, accWidth := 0, mode := m, lastMode := if m = .disabled then s.lastMode else m }) := by
  by_cases h : m = s.mode
  · exact .inl ⟨h, by rw [setModeEffect, if_pos h]⟩
  · exact .inr ⟨h, by rw [setModeEffect, if_neg h]; rfl⟩

/-! ### The tile engine -/

/-- Reading a pixel's luma changes nothing but the counter of free values. -/
theorem readLuma_state (s : State) : ∃ n, (readLuma s).2 = { s with freeCount := n } := by
  obtain ⟨n, hn⟩ := srcRead_state (pixAddr s) s
  unfold readLuma
  split
  · obtain ⟨k, hk⟩ := srcRead_state (pixAddr s + 1) (srcRead (pixAddr s) s).2
    exact ⟨k, by rw [hk, hn]⟩
  · exact ⟨n, hn⟩

/-- A pixel step writes the raster, the accumulators and the cursor, and nothing else of the block's state. -/
theorem pixelEffect_state (s : State) : ∃ n,
    let d := ditherPixel s.algo s.cfg (readLuma s).1 (pixelX s) (pixelY s) s.curR s.curC s.acc
    pixelEffect s =
      advanceCursor (pixelWrite (pixelX s) (pixelY s) d.1 { s with freeCount := n, acc := d.2 }) := by
  obtain ⟨n, hn⟩ := readLuma_state s
  exact ⟨n, by simp only [pixelEffect, hn]⟩

/-- What a step of the tile engine can do: nothing, a pixel in range, or the completion. -/
theorem tileStep_next {s t : State} (h : tileStep s = .next t) :
    (s.busy = false ∧ t = s) ∨
    (s.busy = true ∧ pixelLeft s = true ∧ pixelInRange s = true ∧ sourceInRange s = true ∧ accInRange s = true ∧
      t = pixelEffect s) ∨
    (s.busy = true ∧ pixelLeft s = false ∧ t = completeTile s) := by
  unfold tileStep pixelStep at h
  split_ifs at h <;> simp_all

/-! ### The scheduler -/

/-- What a poll tick can do (R202 to R204). -/
theorem tick_cases (s : State) :
    (s.schedState = .idle ∧ s.dirty = true ∧ tick s = startCycle { s with pollElapsed := 0 }) ∨
    (¬(s.schedState = .idle ∧ s.dirty = true) ∧ tick s = { s with pollElapsed := 0 }) := by
  unfold tick
  by_cases h : s.schedState = .idle ∧ s.dirty = true
  · exact .inl ⟨h.1, h.2, by simp [h]⟩
  · exact .inr ⟨h, by simp only [if_neg h]⟩

/-- What an answer of the panel can do. -/
theorem panelAnswer_cases (a : PanelAnswer) (s : State) :
    (s.outstanding = none ∧ panelAnswer a s = s) ∨
    (∃ op, s.outstanding = some op ∧ a = .ok ∧ panelAnswer a s = onPanelOk op { s with outstanding := none }) ∨
    (∃ op, s.outstanding = some op ∧ a = .fail ∧ panelAnswer a s = abortCycle op { s with outstanding := none }) := by
  unfold panelAnswer
  cases h : s.outstanding with
  | none => exact .inl ⟨rfl, rfl⟩
  | some op =>
    cases a with
    | ok => exact .inr (.inl ⟨op, rfl, rfl, rfl⟩)
    | fail => exact .inr (.inr ⟨op, rfl, rfl, rfl⟩)

/-! ### The bus -/

/-- Bit 0 of STATUS is BUSY (R30). -/
theorem statusWord_bit_busy (s : State) : statusWord s &&& 1 = if s.busy then 1 else 0 := by
  refine BitVec.eq_of_getLsbD_eq fun k hk => ?_
  simp only [statusWord, BitVec.getLsbD_and, BitVec.getLsbD_append]
  cases s.busy <;> interval_cases k <;> simp


/-- A bus read changes nothing but its response (R65, R75). -/
theorem busRead_state (off : Offset) (size : Nat) (s : State) : ∃ r, busRead off size s = { s with busReply := some r } := by
  unfold busRead
  split_ifs
  · split <;> exact ⟨_, rfl⟩
  · exact ⟨_, rfl⟩

/-- What issuing a command word can do (R96). -/
theorem issueCommand_cases (w : Word) (s : State) :
    (∃ i, decode w = .ok i ∧ issueCommand w s = exec i s) ∨
    (∃ e, decode w = .error e ∧ issueCommand w s = .next (unlessBusy (raiseCmdError e) s)) := by
  unfold issueCommand
  cases h : decode w with
  | ok i => exact .inl ⟨i, rfl, rfl⟩
  | error e => exact .inr ⟨e, rfl, rfl⟩

/-- One turn of `wait_idle` reads STATUS, and ends the loop exactly if no tile runs (R99). -/
theorem pollStatus_eq (rest : List HostOp) (s : State) :
    pollStatus rest s =
      if s.busy = true then replyRead (statusWord s) s else setProgram rest (replyRead (statusWord s) s) := by
  have hr : busRead (regBusOffset .status) 32 s = replyRead (statusWord s) s := rfl
  have hb : readsIdle (replyRead (statusWord s) s).busReply = !s.busy := by
    simp only [readsIdle, setReply_busReply, Option.bind_some, statusWord_bit_busy]
    cases s.busy <;> rfl
  unfold pollStatus
  simp only [hr, hb]
  cases s.busy <;> rfl

/-- What the host's next step can do (R66): nothing, a read, a write, or a turn of `wait_idle`. -/
theorem hostStep_cases (s : State) :
    (s.program = [] ∧ hostStep s = .next s) ∨
    (∃ off rest, s.program = .read off :: rest ∧ hostStep s = .next (busRead off 32 (setProgram rest s))) ∨
    (∃ off v rest, s.program = .write off v :: rest ∧ hostStep s = busWrite off 32 v (setProgram rest s)) ∨
    (∃ rest, s.program = .waitIdle :: rest ∧ hostStep s = .next (pollStatus rest s)) := by
  unfold hostStep
  cases h : s.program with
  | nil => exact .inl ⟨rfl, rfl⟩
  | cons op rest =>
    cases op with
    | read off => exact .inr (.inl ⟨off, rest, rfl, rfl⟩)
    | write off v => exact .inr (.inr (.inl ⟨off, v, rest, rfl, rfl⟩))
    | waitIdle => exact .inr (.inr (.inr ⟨rest, rfl, rfl⟩))

/-! ### The guards, as propositions -/

theorem transferLegal_iff (off : Offset) (size : Nat) :
    transferLegal off size = true ↔ size = 32 ∧ off.toNat % 4 = 0 := by simp [transferLegal]

theorem canReuse_iff (m : DitherMode) (w : Nat) (s : State) :
    canReuse m w s = true ↔ s.accRows.toNat = modeRows m ∧ w + modePad m ≤ s.accWidth.toNat := by
  simp only [canReuse, decide_eq_true_eq]

theorem pixelLeft_iff (s : State) : pixelLeft s = true ↔ 0 < s.lw.toNat ∧ s.curR < s.lh.toNat := by
  simp only [pixelLeft, decide_eq_true_eq]

theorem pixelInRange_iff (s : State) :
    pixelInRange s = true ↔ pixelX s < s.cfg.screenW ∧ pixelY s < s.cfg.screenH := by
  simp only [pixelInRange, decide_eq_true_eq]

theorem sourceInRange_iff (s : State) :
    sourceInRange s = true ↔ pixAddr s + (if s.lfmt = .rgb565 then 1 else 0) < 2 ^ 32 := by
  simp only [sourceInRange, decide_eq_true_eq]

theorem drawing_iff (s : State) : drawing s = true ↔ s.schedPhase = .draw ∧ s.outstanding = none := by
  simp only [drawing, decide_eq_true_eq]

/-- The rows hold what a pixel of an error-diffusion algorithm touches; the others touch none (R164, R165). -/
theorem accInRange_iff (s : State) :
    accInRange s = true ↔ diffuses s.algo = false ∨ s.acc.holds (s.curC + modePad s.algo + 1) = true := by
  simp only [accInRange, Bool.or_eq_true, Bool.not_eq_true']

/-! ### The step -/

/-- With an event scheduled, a step takes it off the schedule and handles it. -/
theorem step_scheduled {s : State} {e : Event} {rest : List Event} (h : s.schedule = e :: rest) :
    step s = handle e { s with schedule := rest } := by
  simp [step, nextEvent, takeEvent, h]

/-- With nothing scheduled, a step handles a free event. -/
theorem step_free {s : State} (h : s.schedule = []) :
    step s = handle (Config.freeEvent s.freeCount) { s with freeCount := s.freeCount + 1 } := by
  simp [step, nextEvent, takeEvent, h]

/-- An event offered is the one that the step handles. -/
theorem step_offer (e : Event) (s : State) : step (offer e s) = handle e { s with schedule := [] } := rfl

theorem handle_released {s : State} (e : Event) (h : s.resetHeld = false) : handle e s = agentStep e s := by
  simp [handle, h]

theorem handle_held {s : State} (e : Event) (h : s.resetHeld = true) : handle e s = .next (heldStep e s) := by
  simp [handle, h]

end Sys2Proof.Machine
end

