-- ==== Sys2Proof/Laws/PerInstr.lean ====
section
/-! SUPPORT. One lemma per instruction: its command word carries the fixed bits of its row of the opcode map
(30_encoding.md R94). -/

namespace Sys2Proof.Laws

/-- The word of every instruction, well formed or not, matches the mask and the pattern of its row (R94). -/
def EncodeMatchesRow.Statement (i : Instr) : Prop := encode i &&& i.row.mask = i.row.pattern

theorem EncodeMatchesRow.setMode (m : DitherMode) : EncodeMatchesRow.Statement (.setMode m) := by
  cases m <;> rfl

theorem EncodeMatchesRow.getMode : EncodeMatchesRow.Statement .getMode := rfl

theorem EncodeMatchesRow.setEnabled (e : Bool) : EncodeMatchesRow.Statement (.setEnabled e) := by
  cases e <;> rfl

theorem EncodeMatchesRow.isEnabled : EncodeMatchesRow.Statement .isEnabled := rfl

theorem EncodeMatchesRow.freeBuffers : EncodeMatchesRow.Statement .freeBuffers := rfl

theorem EncodeMatchesRow.sampleLuma (fmt : Format) (b0 b1 : Byte) :
    EncodeMatchesRow.Statement (.sampleLuma fmt b0 b1) := by
  refine BitVec.eq_of_getLsbD_eq fun k hk => ?_
  simp only [encode, formatS, Instr.row, BitVec.getLsbD_and, BitVec.getLsbD_append]
  interval_cases k <;> simp

theorem EncodeMatchesRow.convertArea (fmt : Format) (bpp : BitVec 3) :
    EncodeMatchesRow.Statement (.convertArea fmt bpp) := by
  refine BitVec.eq_of_getLsbD_eq fun k hk => ?_
  simp only [encode, formatC, Instr.row, BitVec.getLsbD_and, BitVec.getLsbD_append]
  interval_cases k <;> simp

end Sys2Proof.Laws
end

