-- ==== Sys2Proof/Laws/TileEngine.lean ====
section
/-! SUPPORT. A pixel step, field by field: it writes the raster, the accumulators, the cursor and the counter of free
values, and nothing else (41_dither_engine.md R150). -/

namespace Sys2Proof.Machine

@[simp] theorem pixelEffect_cfg (s : State) : (pixelEffect s).cfg = s.cfg := by
  obtain ⟨n, e⟩ := pixelEffect_state s; simp [e]

@[simp] theorem pixelEffect_result (s : State) : (pixelEffect s).result = s.result := by
  obtain ⟨n, e⟩ := pixelEffect_state s; simp [e]

@[simp] theorem pixelEffect_tileOrigin (s : State) : (pixelEffect s).tileOrigin = s.tileOrigin := by
  obtain ⟨n, e⟩ := pixelEffect_state s; simp [e]

@[simp] theorem pixelEffect_tileSize (s : State) : (pixelEffect s).tileSize = s.tileSize := by
  obtain ⟨n, e⟩ := pixelEffect_state s; simp [e]

@[simp] theorem pixelEffect_srcAddr (s : State) : (pixelEffect s).srcAddr = s.srcAddr := by
  obtain ⟨n, e⟩ := pixelEffect_state s; simp [e]

@[simp] theorem pixelEffect_mode (s : State) : (pixelEffect s).mode = s.mode := by
  obtain ⟨n, e⟩ := pixelEffect_state s; simp [e]

@[simp] theorem pixelEffect_lastMode (s : State) : (pixelEffect s).lastMode = s.lastMode := by
  obtain ⟨n, e⟩ := pixelEffect_state s; simp [e]

@[simp] theorem pixelEffect_busy (s : State) : (pixelEffect s).busy = s.busy := by
  obtain ⟨n, e⟩ := pixelEffect_state s; simp [e]

@[simp] theorem pixelEffect_dirty (s : State) : (pixelEffect s).dirty = s.dirty := by
  obtain ⟨n, e⟩ := pixelEffect_state s; simp [e]

@[simp] theorem pixelEffect_errCode (s : State) : (pixelEffect s).errCode = s.errCode := by
  obtain ⟨n, e⟩ := pixelEffect_state s; simp [e]

@[simp] theorem pixelEffect_errOverflow (s : State) : (pixelEffect s).errOverflow = s.errOverflow := by
  obtain ⟨n, e⟩ := pixelEffect_state s; simp [e]

@[simp] theorem pixelEffect_intStatus (s : State) : (pixelEffect s).intStatus = s.intStatus := by
  obtain ⟨n, e⟩ := pixelEffect_state s; simp [e]

@[simp] theorem pixelEffect_intEnable (s : State) : (pixelEffect s).intEnable = s.intEnable := by
  obtain ⟨n, e⟩ := pixelEffect_state s; simp [e]

@[simp] theorem pixelEffect_threshold (s : State) : (pixelEffect s).threshold = s.threshold := by
  obtain ⟨n, e⟩ := pixelEffect_state s; simp [e]

@[simp] theorem pixelEffect_partialCount (s : State) : (pixelEffect s).partialCount = s.partialCount := by
  obtain ⟨n, e⟩ := pixelEffect_state s; simp [e]

@[simp] theorem pixelEffect_accRows (s : State) : (pixelEffect s).accRows = s.accRows := by
  obtain ⟨n, e⟩ := pixelEffect_state s; simp [e]

@[simp] theorem pixelEffect_accWidth (s : State) : (pixelEffect s).accWidth = s.accWidth := by
  obtain ⟨n, e⟩ := pixelEffect_state s; simp [e]

@[simp] theorem pixelEffect_fallbackCount (s : State) : (pixelEffect s).fallbackCount = s.fallbackCount := by
  obtain ⟨n, e⟩ := pixelEffect_state s; simp [e]

@[simp] theorem pixelEffect_panelFailCount (s : State) : (pixelEffect s).panelFailCount = s.panelFailCount := by
  obtain ⟨n, e⟩ := pixelEffect_state s; simp [e]

@[simp] theorem pixelEffect_lastFailOp (s : State) : (pixelEffect s).lastFailOp = s.lastFailOp := by
  obtain ⟨n, e⟩ := pixelEffect_state s; simp [e]

@[simp] theorem pixelEffect_lastFailPlane (s : State) : (pixelEffect s).lastFailPlane = s.lastFailPlane := by
  obtain ⟨n, e⟩ := pixelEffect_state s; simp [e]

@[simp] theorem pixelEffect_lx (s : State) : (pixelEffect s).lx = s.lx := by
  obtain ⟨n, e⟩ := pixelEffect_state s; simp [e]

@[simp] theorem pixelEffect_ly (s : State) : (pixelEffect s).ly = s.ly := by
  obtain ⟨n, e⟩ := pixelEffect_state s; simp [e]

@[simp] theorem pixelEffect_lw (s : State) : (pixelEffect s).lw = s.lw := by
  obtain ⟨n, e⟩ := pixelEffect_state s; simp [e]

@[simp] theorem pixelEffect_lh (s : State) : (pixelEffect s).lh = s.lh := by
  obtain ⟨n, e⟩ := pixelEffect_state s; simp [e]

@[simp] theorem pixelEffect_lsrc (s : State) : (pixelEffect s).lsrc = s.lsrc := by
  obtain ⟨n, e⟩ := pixelEffect_state s; simp [e]

@[simp] theorem pixelEffect_lfmt (s : State) : (pixelEffect s).lfmt = s.lfmt := by
  obtain ⟨n, e⟩ := pixelEffect_state s; simp [e]

@[simp] theorem pixelEffect_lbpp (s : State) : (pixelEffect s).lbpp = s.lbpp := by
  obtain ⟨n, e⟩ := pixelEffect_state s; simp [e]

@[simp] theorem pixelEffect_algo (s : State) : (pixelEffect s).algo = s.algo := by
  obtain ⟨n, e⟩ := pixelEffect_state s; simp [e]

@[simp] theorem pixelEffect_schedState (s : State) : (pixelEffect s).schedState = s.schedState := by
  obtain ⟨n, e⟩ := pixelEffect_state s; simp [e]

@[simp] theorem pixelEffect_schedPhase (s : State) : (pixelEffect s).schedPhase = s.schedPhase := by
  obtain ⟨n, e⟩ := pixelEffect_state s; simp [e]

@[simp] theorem pixelEffect_plane (s : State) : (pixelEffect s).plane = s.plane := by
  obtain ⟨n, e⟩ := pixelEffect_state s; simp [e]

@[simp] theorem pixelEffect_lut (s : State) : (pixelEffect s).lut = s.lut := by
  obtain ⟨n, e⟩ := pixelEffect_state s; simp [e]

@[simp] theorem pixelEffect_drawIndex (s : State) : (pixelEffect s).drawIndex = s.drawIndex := by
  obtain ⟨n, e⟩ := pixelEffect_state s; simp [e]

@[simp] theorem pixelEffect_drawBuf (s : State) : (pixelEffect s).drawBuf = s.drawBuf := by
  obtain ⟨n, e⟩ := pixelEffect_state s; simp [e]

@[simp] theorem pixelEffect_outstanding (s : State) : (pixelEffect s).outstanding = s.outstanding := by
  obtain ⟨n, e⟩ := pixelEffect_state s; simp [e]

@[simp] theorem pixelEffect_pollElapsed (s : State) : (pixelEffect s).pollElapsed = s.pollElapsed := by
  obtain ⟨n, e⟩ := pixelEffect_state s; simp [e]

@[simp] theorem pixelEffect_src (s : State) : (pixelEffect s).src = s.src := by
  obtain ⟨n, e⟩ := pixelEffect_state s; simp [e]

@[simp] theorem pixelEffect_srcChanged (s : State) : (pixelEffect s).srcChanged = s.srcChanged := by
  obtain ⟨n, e⟩ := pixelEffect_state s; simp [e]

@[simp] theorem pixelEffect_busReply (s : State) : (pixelEffect s).busReply = s.busReply := by
  obtain ⟨n, e⟩ := pixelEffect_state s; simp [e]

@[simp] theorem pixelEffect_panelLog (s : State) : (pixelEffect s).panelLog = s.panelLog := by
  obtain ⟨n, e⟩ := pixelEffect_state s; simp [e]

@[simp] theorem pixelEffect_resetHeld (s : State) : (pixelEffect s).resetHeld = s.resetHeld := by
  obtain ⟨n, e⟩ := pixelEffect_state s; simp [e]

@[simp] theorem pixelEffect_schedule (s : State) : (pixelEffect s).schedule = s.schedule := by
  obtain ⟨n, e⟩ := pixelEffect_state s; simp [e]

@[simp] theorem pixelEffect_program (s : State) : (pixelEffect s).program = s.program := by
  obtain ⟨n, e⟩ := pixelEffect_state s; simp [e]

/-- The cursor's next column (R150). -/
@[simp] theorem pixelEffect_curC (s : State) :
    (pixelEffect s).curC = if s.curC + 1 = s.lw.toNat then 0 else s.curC + 1 := by
  obtain ⟨n, e⟩ := pixelEffect_state s
  exact congrArg State.curC e

/-- The cursor's next row (R150). -/
@[simp] theorem pixelEffect_curR (s : State) :
    (pixelEffect s).curR = if s.curC + 1 = s.lw.toNat then s.curR + 1 else s.curR := by
  obtain ⟨n, e⟩ := pixelEffect_state s
  exact congrArg State.curR e

/-- The raster after a pixel step: one pixel write (R150, R181). -/
theorem pixelEffect_raster (s : State) :
    (pixelEffect s).raster =
      (pixelWrite (pixelX s) (pixelY s)
        (ditherPixel s.algo s.cfg (readLuma s).1 (pixelX s) (pixelY s) s.curR s.curC s.acc).1 s).raster := by
  obtain ⟨n, e⟩ := pixelEffect_state s
  exact (congrArg State.raster e :)

/-- The accumulators after a pixel step: the kernel's contributions, then RowStart where a row follows (R150, R167). -/
theorem pixelEffect_acc (s : State) :
    (pixelEffect s).acc =
      if startsRow s then
        rowStart s.algo s.lw.toNat (s.curR + 1)
          (ditherPixel s.algo s.cfg (readLuma s).1 (pixelX s) (pixelY s) s.curR s.curC s.acc).2
      else (ditherPixel s.algo s.cfg (readLuma s).1 (pixelX s) (pixelY s) s.curR s.curC s.acc).2 := by
  obtain ⟨n, e⟩ := pixelEffect_state s
  exact congrArg State.acc e

end Sys2Proof.Machine
end

