-- ==== Sys2Proof/Tests/Slice0.lean ====
section
/-! SUPPORT. Tests of one step each, with the expected values of 95_test_vectors.md, and for every statement with
hypotheses a state and operands that meet them together. -/

namespace Sys2Proof.Tests

open Sys2Proof Sys2Proof.Machine Sys2Proof.Claims

/-! ## Helpers -/

/-- One field of the next state. -/
def after {α : Type} (o : Host.Outcome State Fault Refusal) (f : State → α) : Option α :=
  match o with
  | .next t => some (f t)
  | .fault _ => none
  | .refused _ => none

/-- A small screen, 12 by 3, with 2 bytes a row, 8 accumulator cells a row (2.4.6) and two planes (2.7.2). -/
def smallParams : Params := { defaultParams with screenW := 12, screenH := 3, accRowCells := 8, panelPlanes := 2 }

/-- The small screen right after reset. -/
def small : State := resetWith smallParams

/-- The default screen with the argument registers of a tile. -/
def withTile (origin size src : Word) (s : State) : State :=
  { s with tileOrigin := origin, tileSize := size, srcAddr := src }

/-- A w by 1 tile of L8 bytes at the origin of the small screen, at its first pixel. -/
def running (a : DitherMode) (w : BitVec 16) (bytes : Memory) : State :=
  { small with
    mode := a
    lastMode := if a = .disabled then .ordered else a
    busy := true
    algo := a
    lw := w
    lh := 1
    lbpp := 1
    src := bytes
    accRows := BitVec.ofNat 2 (modeRows a)
    accWidth := if diffuses a then w + BitVec.ofNat 16 (modePad a) else 0 }

/-- A cycle waiting for the answer to a request. -/
def waiting (op : PanelOp) (phase : SchedPhase) (s : State) : State :=
  { s with schedState := .refreshInProgress, schedPhase := phase, outstanding := some op, dirty := true }

/-! ## WellFormed -/

theorem test_tag_of_l8_is_ill_formed : (Instr.sampleLuma (.unsupported 0) 1 2).wellFormed = false := by decide

theorem test_tag_of_rgb332_is_ill_formed : (Instr.sampleLuma (.unsupported 1) 1 2).wellFormed = false := by decide

theorem test_tag_of_rgb565_is_ill_formed : (Instr.convertArea (.unsupported 2) 1).wellFormed = false := by decide

theorem test_tag_three_is_well_formed : (Instr.convertArea (.unsupported 3) 1).wellFormed = true := by decide

/-! ## Decode: words written out from 95_test_vectors.md 2.2 -/

theorem test_decode_set_mode : decode 0x00000201 = .ok (.setMode .ed2) := rfl

theorem test_decode_get_mode : decode 0x00000002 = .ok .getMode := rfl

theorem test_decode_set_enabled : decode 0x00000103 = .ok (.setEnabled true) := rfl

theorem test_decode_is_enabled : decode 0x00000004 = .ok .isEnabled := rfl

theorem test_decode_free_buffers : decode 0x00000005 = .ok .freeBuffers := rfl

theorem test_decode_sample_luma : decode 0xF81F0206 = .ok (.sampleLuma .rgb565 0x1F 0xF8) := rfl

theorem test_decode_sample_luma_unsupported : decode 0x775A0706 = .ok (.sampleLuma (.unsupported 7) 0x5A 0x77) := rfl

theorem test_decode_convert_area : decode 0x00002207 = .ok (.convertArea .rgb565 2) := rfl

theorem test_decode_rejects_zero : decode 0x00000000 = .error .illegalOpcode := rfl

theorem test_decode_rejects_opcode_eight : decode 0x00000008 = .error .illegalOpcode := rfl

theorem test_decode_rejects_opcode_ff : decode 0x000000FF = .error .illegalOpcode := rfl

theorem test_decode_rejects_set_mode_bit_10 : decode 0x00000401 = .error .reservedBits := rfl

theorem test_decode_rejects_get_mode_bit_31 : decode 0x80000002 = .error .reservedBits := rfl

theorem test_decode_rejects_set_enabled_bit_9 : decode 0x00000203 = .error .reservedBits := rfl

theorem test_decode_rejects_sample_luma_bit_12 : decode 0x00001006 = .error .reservedBits := rfl

theorem test_decode_rejects_convert_area_bit_15 : decode 0x00009007 = .error .reservedBits := rfl

theorem test_table_word_decodes : decodeTableWord 32 0x00001107 = some (.convertArea .rgb332 1) := by decide

theorem test_assembler_refuses_wide_operand : assemble (.setMode 4) = none := by decide

/-! ## One step of each command (2.3, 2.4.1, 2.4.2, 2.4.6, P2) -/

theorem test_set_mode_ed3 : after (exec (.setMode .ed3) State.reset) modeWord = some 0x1F := by decide

theorem test_set_mode_disabled_keeps_last :
    after (exec (.setMode .disabled) { small with mode := .ed3, lastMode := .ed3, accRows := 3, accWidth := 8 })
      (fun t => (modeWord t, accAllocWord t)) = some (0x0C, 0) := by decide

theorem test_get_mode : after (exec .getMode { small with mode := .ed2, lastMode := .ed2 }) (·.result) = some 2 := by
  decide

theorem test_enable_from_reset : after (exec (.setEnabled true) State.reset) modeWord = some 0x15 := by decide

theorem test_enable_while_enabled_keeps_buffers :
    after (exec (.setEnabled true) { small with mode := .ed2, lastMode := .ed2, accRows := 2, accWidth := 6 })
      (fun t => (modeWord t, accAllocWord t)) = some (0x1A, 0x00020006) := by decide

theorem test_is_enabled_from_reset :
    after (exec .isEnabled { small with result := 7 }) (·.result) = some 0 := by decide

theorem test_free_buffers :
    after (exec .freeBuffers { small with mode := .ed2, lastMode := .ed2, accRows := 2, accWidth := 12 })
      (fun t => (modeWord t, accAllocWord t)) = some (0x1A, 0) := by decide

theorem test_sample_luma_rgb565 : after (exec (.sampleLuma .rgb565 0x1F 0xF8) small) (·.result) = some 0x69 := by decide

theorem test_sample_luma_rgb332 : after (exec (.sampleLuma .rgb332 0x92 0) small) (·.result) = some 148 := by decide

theorem test_convert_area_out_of_bounds :
    after (exec (.convertArea .l8 1) (withTile 0x000000C4 0x00010008 0 State.reset))
      (fun t => (errWord t, t.intStatus, t.busy)) = some (5, 2, false) := by decide

theorem test_convert_area_falls_back :
    after (exec (.convertArea .l8 1) (withTile 0 0x00010005 0 { small with mode := .ed3, lastMode := .ed3 }))
      (fun t => (accAllocWord t, t.fallbackCount, t.intStatus, t.algo, t.busy)) =
      some (0, 1, 0x10, .disabled, true) := by decide

/-! ## One step of the other agents (1.5, 2.1, 2.4.3, 2.4.4, 2.6, 2.7, P1, P2) -/

theorem test_source_range_past_the_end :
    convertArgError .l8 1 (withTile 0 0x00020002 0xFFFFFFFD State.reset) = some .badArg := by decide

theorem test_source_range_to_the_end :
    convertArgError .l8 1 (withTile 0 0x00020002 0xFFFFFFFC State.reset) = none := by decide

theorem test_second_error_overflows :
    errWord (raiseCmdError .bounds { small with errCode := 3 }) = 0x13 := by decide

theorem test_threshold_write_clears_count :
    after (busWrite 0x038 32 0x00070003 { small with partialCount := 4, threshold := 5 })
      (fun t => (t.threshold, t.partialCount)) = some (3, 0) := by decide

theorem test_last_raster_word :
    (busRead 0x02384 32 { State.reset with raster := [(4999, 1)] }).busReply = some ⟨.okay, some 0x01000000⟩ := by
  decide

theorem test_past_the_raster_window :
    (busRead 0x02388 32 State.reset).busReply = some ⟨.slverr, some 0⟩ := by decide

theorem test_bit_address_of_first_pixel_of_row_1 : (pixelWrite 0 1 true State.reset).raster = [(25, 0x80)] := by decide

theorem test_floyd_steinberg_first_pixel :
    after (tileStep (running .ed2 4 [(0, 100)])) (fun t => (t.acc.row0.take 4, t.acc.row1.take 4, t.raster)) =
      some ([0, 0, 43, 0], [18, 31, 6, 0], [(0, 0x80)]) := by decide

theorem test_stucki_first_pixel :
    after (tileStep (running .ed3 1 [(0, 128)])) (fun t => (t.acc.row1.map BitVec.toInt, t.raster, t.curR)) =
      some ([-6, -12, -24, -12, -6, 0, 0, 0], [], 1) := by decide

theorem test_ordered_uses_absolute_x :
    [1, 2, 3, 4, 5, 6, 7, 8].map (fun x => ditherOrdered defaultParams 128 x 0) =
      [true, false, true, false, true, false, true, false] := by decide

theorem test_completion_status :
    after (tileStep { running .disabled 1 [] with curR := 1 }) statusWord = some 0x20 := by decide

theorem test_irq_follows_enable : irq { small with intStatus := 1, intEnable := 3 } = true := by decide

theorem test_tick_status : statusWord (tick { small with dirty := true }) = 0x26 := by decide

theorem test_second_plane_failure :
    lastPanelFailWord (panelAnswer .fail { waiting .draw .draw small with plane := 1 }) = 0x0B := by decide

theorem test_full_refresh_at_the_threshold :
    (panelAnswer .ok { waiting .powerOn .powerOn small with threshold := 5, partialCount := 5 }).panelLog =
      [.selectLut .fullLut] := by decide

theorem test_wait_idle_reads_on_while_busy :
    after (step { running .disabled 1 [] with schedule := [.hostStep], program := [.waitIdle] })
      (fun t => (t.busReply, t.program)) = some (some ⟨.okay, some 0x01⟩, [.waitIdle]) := by decide

theorem test_wait_idle_ends_when_idle :
    after (step { small with dirty := true, schedule := [.hostStep], program := [.waitIdle, .read 0x01000] })
      (fun t => (t.busReply, t.program)) = some (some ⟨.okay, some 0x20⟩, [.read 0x01000]) := by decide

theorem test_convert_expands :
    Machine.expand (.convert 192 0 8 1 0 0 1) =
      some [.write 0x018 0x000000C0, .write 0x01C 0x00010008, .write 0x020 0, .write 0x010 0x00001007, .waitIdle] := by
  decide

theorem test_fetched_word_runs :
    after (step (State.reset.withFetchWord 32 0xF81F0206)) (fun t => (t.result, t.busReply)) =
      some (0x69, some ⟨.okay, none⟩) := by decide

/-! ## States that meet the invariant -/

theorem small_legal : smallParams.Legal := by
  constructor <;> decide

theorem small_inv : MachineInv small where
  registers := by constructor <;> first | exact small_legal | decide
  memory := by constructor <;> decide
  tile := fun h => absurd h (by decide)
  scheduler := by constructor <;> decide

/-- A tile of two pixels under way, in each mode. -/
theorem running_inv (a : DitherMode) (v : Byte) (hv : v = 0 ∨ v = 255) :
    MachineInv (running a 2 [(0, v), (1, v)]) := by
  rcases hv with rfl | rfl <;> cases a
  all_goals
    exact {
      registers := by constructor <;> first | exact small_legal | decide
      memory := by constructor <;> decide
      tile := fun _ => by constructor <;> decide
      scheduler := by constructor <;> decide }

/-- Its cells hold 0, as at acceptance. -/
theorem running_cellsZero (a : DitherMode) (v : Byte) : CellsZero (running a 2 [(0, v), (1, v)]) := by
  intro j i hj hi
  have hj : j < 3 := lt_of_lt_of_le hj (show rowsOf a ≤ 3 by cases a <;> decide)
  have hi : i < 8 := lt_of_lt_of_le hi (show 2 + padOf a ≤ 8 by cases a <;> decide)
  interval_cases j <;> interval_cases i <;> rfl

/-- An empty tile under way. -/
theorem empty_inv : MachineInv (running .ordered 0 []) where
  registers := by constructor <;> first | exact small_legal | decide
  memory := by constructor <;> decide
  tile := fun _ => by constructor <;> decide
  scheduler := by constructor <;> decide

/-- One plane, a tile completed, the refresh counter at its last partial value, and a poll tick scheduled. -/
def dirtyIdle : State :=
  { small with cfg := { smallParams with panelPlanes := 1 }, dirty := true, threshold := 2, partialCount := 1,
               schedule := [.tick] }

theorem dirtyIdle_inv : MachineInv dirtyIdle where
  registers := by
    constructor <;> first | decide | exact ⟨by decide, by decide, by decide, by decide, by decide, by decide, by decide⟩
  memory := by constructor <;> decide
  tile := fun h => absurd h (by decide)
  scheduler := by constructor <;> decide

/-! ## Witnesses: encoding -/

theorem witness_DecodeOfEncodeGivesBackInstr :
    [Instr.setMode .ed3, .getMode, .setEnabled false, .isEnabled, .freeBuffers, .sampleLuma (.unsupported 3) 0 255,
      .sampleLuma (.unsupported 15) 255 0, .convertArea .rgb565 7].map Instr.wellFormed =
      [true, true, true, true, true, true, true, true] := by decide

theorem witness_EncodeOfDecodeGivesBackWord : decode 0x00007F07 = .ok (.convertArea (.unsupported 15) 7) := rfl

theorem witness_DecodeClassifiesEveryWord :
    opOf 0xFFFFFF00 = 0 ∧ 8 ≤ opOf 0x00000008 ∧ 8 ≤ opOf 0x000000FF ∧
    (1 ≤ opOf 0x00000401 ∧ opOf 0x00000401 ≤ 7 ∧ (0x00000401 : Word) &&& reservedBits (opOf 0x00000401) ≠ 0) ∧
    (1 ≤ opOf 0x00009007 ∧ opOf 0x00009007 ≤ 7 ∧ (0x00009007 : Word) &&& reservedBits (opOf 0x00009007) ≠ 0) ∧
    (1 ≤ opOf 0x00000301 ∧ opOf 0x00000301 ≤ 7 ∧ (0x00000301 : Word) &&& reservedBits (opOf 0x00000301) = 0) ∧
    (opOf 0x00007F07 ≤ 7 ∧ (0x00007F07 : Word) &&& reservedBits (opOf 0x00007F07) = 0) := by decide

theorem witness_AssembledWordDecodesToItsCommand :
    operandsFit (.setMode 3) ∧ ¬operandsFit (.setMode 4) ∧ operandsFit (.setEnabled 1) ∧ ¬operandsFit (.setEnabled 2) ∧
    operandsFit (.sampleLuma 15 255 255) ∧ ¬operandsFit (.sampleLuma 16 0 0) ∧ ¬operandsFit (.sampleLuma 0 256 0) ∧
    ¬operandsFit (.sampleLuma 0 0 256) ∧ operandsFit (.convertArea 15 7) ∧ ¬operandsFit (.convertArea 16 0) ∧
    ¬operandsFit (.convertArea 0 8) ∧ operandsFit .getMode := by simp [operandsFit]

/-! ## Witnesses: commands -/

/-- A tile whose right edge and lower edge are those of the small screen (X + W = 12, Y + H = 3). -/
def edgeTile : State := withTile 0x00020004 0x00010008 0xFFFFFFF8 small

/-- One column more. -/
def pastEdgeTile : State := withTile 0x00020005 0x00010008 0 small

theorem witness_CommandChecksRunInOrder :
    firstError 0 { small with busy := true } = some 3 ∧ firstError 0xFFFFFF00 small = some 1 ∧
    firstError 8 small = some 1 ∧ firstError 0x00000401 small = some 2 ∧ firstError 0x00009007 small = some 2 ∧
    firstError 0x00000007 pastEdgeTile = some 4 ∧ firstError 0x00005007 small = some 4 ∧
    firstError 0x00001207 small = some 4 ∧ firstError 0x00002207 edgeTile = some 4 ∧
    firstError 0x00001007 pastEdgeTile = some 5 ∧ firstError 0x00001007 edgeTile = none ∧
    firstError 0x00000301 small = none := by decide

theorem witness_CommandErrorChangesOnlyErrAndCause :
    firstError 0 small = some 1 ∧ firstError 0x80000002 { small with errCode := 3 } = some 2 ∧
      firstError 0x00000005 { small with busy := true } = some 3 := by decide

theorem witness_SetModeCompletes : small.busy = false := rfl

theorem witness_SetEnabledCompletes :
    ({ small with mode := .ed2 }.busy = false ∧ { small with mode := .ed2 }.mode ≠ .disabled) ∧
    (small.busy = false ∧ small.mode = .disabled ∧ small.lastMode ≠ .disabled) ∧
    ({ small with lastMode := .disabled }.busy = false ∧ { small with lastMode := .disabled }.mode = .disabled ∧
      { small with lastMode := .disabled }.lastMode = .disabled) := by decide

theorem witness_ModeQueriesComplete : { small with mode := .ed3 }.busy = false := rfl

theorem witness_FreeBuffersCompletes : { small with accRows := 2, accWidth := 6 }.busy = false := rfl

theorem witness_SampleLumaCompletes : { small with result := 5 }.busy = false := rfl

/-- The error-diffusion modes with a 4 by 1 tile: buffers kept, allocated to the last cell, and not fitting. -/
theorem witness_ConvertAreaAcceptsTile :
    (edgeTile.busy = false ∧ argCode false 1 edgeTile = none ∧ edgeTile.mode = .disabled) ∧
    (argCode true 2 (withTile 0 0x00010004 0 { small with mode := .ed2, accRows := 2, accWidth := 6 }) = none ∧
      (2 = rowsOf .ed2 ∧ 4 + padOf .ed2 ≤ 6)) ∧
    (argCode false 4 (withTile 0 0x00010004 0 { small with mode := .ed3 }) = none ∧
      ¬(0 = rowsOf .ed3 ∧ 4 + padOf .ed3 ≤ 0) ∧ 4 + padOf .ed3 ≤ small.cfg.accRowCells) ∧
    (argCode false 1 (withTile 0 0x00010005 0 { small with mode := .ed3 }) = none ∧
      ¬(0 = rowsOf .ed3 ∧ 5 + padOf .ed3 ≤ 0) ∧ small.cfg.accRowCells < 5 + padOf .ed3) := by decide

/-! ## Witnesses: the step, reset and the bus -/

theorem witness_StepRunsDecodedCommand :
    { small with schedule := [cmdWrite 0x00000301, .tick] }.schedule = cmdWrite 0x00000301 :: [.tick] ∧
      small.resetHeld = false ∧ decode 0x00000301 = .ok (.setMode .ed3) ∧
    { small with schedule := [.hostStep], program := [.write 0x010 0x00000301, .waitIdle] }.schedule = .hostStep :: [] ∧
      { small with program := [.write 0x010 0x00000301, .waitIdle] }.program = .write 0x010 0x00000301 :: [.waitIdle] :=
  ⟨rfl, rfl, rfl, rfl, rfl⟩

theorem witness_HeldResetStopsTheBlock :
    ∀ e ∈ [Event.busRead 0 32, .busWrite 0x010 32 1, .hostStep, .tileStep, .schedStep, .tick, .elapse 1,
      .panelAnswer .ok, .resetRelease],
      { small with schedule := [e], resetHeld := true, program := [.waitIdle] }.schedule = e :: [] ∧
        { small with schedule := [e], resetHeld := true, program := [.waitIdle] }.resetHeld = true ∧
        { small with schedule := [e], resetHeld := true, program := [.waitIdle] }.program ≠ [] :=
  fun _ _ => ⟨rfl, rfl, by simp⟩

theorem witness_BusReadsChangeNothing : { small with dirty := true }.resetHeld = false := rfl

theorem witness_IllegalTransferAnswersSlverr :
    ((16 : Nat) ≠ 32) ∧ ((0x00002 : Offset).toNat % 4 ≠ 0) ∧ ((0xFFFFF : Offset).toNat % 4 ≠ 0) := by decide

theorem witness_ReservedOffsetAnswersSlverr :
    ∀ o ∈ [0x0000C, 0x00050, 0x00FFC, 0x02388, 0xFFFFC],
      o ∉ registerOffsets ∧ ¬InWindow State.reset.cfg o := by unfold InWindow; decide

theorem witness_ReadOnlyWriteAnswersSlverr :
    (0x000 ∈ readOnlyOffsets ∧ 0x04C ∈ readOnlyOffsets ∧ (0x04C : Offset).toNat % 4 = 0) ∧
    (InWindow State.reset.cfg 0x01000 ∧ InWindow State.reset.cfg 0x02384 ∧ (0x02384 : Offset).toNat % 4 = 0) ∧
    ((0x02C : Offset).toNat = 0x02C ∧ (0x02C : Offset).toNat % 4 = 0) := by unfold InWindow; decide

theorem witness_RegistersReadTheirFields : { small with dirty := true }.cfg.Legal := small_legal

theorem witness_RasterWindowReadsFourBytes :
    State.reset.cfg.rasterBytes ≤ 0xFF000 ∧ InWindow State.reset.cfg (0x01000 + 4 * 0) ∧
      InWindow State.reset.cfg (0x01000 + 4 * 1249) ∧ InWindow small.cfg (0x01000 + 4 * 1) := by unfold InWindow; decide

/-! ## Witnesses: memories -/

/-- A raster with two dark pixels. -/
def marked : State := { small with raster := [(0, 0x80), (3, 0x01)] }

theorem witness_RasterReadsBackWrites : Memory.wf rasterUnlisted marked.cfg.rasterBytes marked.raster := by decide

theorem witness_PixelWriteSetsOneBit : Memory.wf rasterUnlisted marked.cfg.rasterBytes marked.raster := by decide

theorem witness_SourceReadsWhatHostLeft :
    Memory.wf sourceUnlisted (2 ^ 32) { small with src := [(0, 0), (0xFFFFFFFF, 255)] }.src ∧ small.busy = false ∧
      small.srcChanged = [] := by decide

/-! ## Witnesses: the tile engine -/

theorem witness_CompletionStepEndsTile :
    ({ running .ed2 4 [] with curR := 1 }.busy = true ∧ { running .ed2 4 [] with curR := 1 }.lh.toNat ≤ 1) ∧
    ((running .ed2 0 []).busy = true ∧ (running .ed2 0 []).lw = 0) := by decide

theorem witness_PixelStepWritesCursorPixel (a : DitherMode) :
    MachineInv (running a 2 [(0, 0), (1, 0)]) ∧ (running a 2 [(0, 0), (1, 0)]).busy = true ∧
      (running a 2 [(0, 0), (1, 0)]).lw ≠ 0 ∧
      (running a 2 [(0, 0), (1, 0)]).curR < (running a 2 [(0, 0), (1, 0)]).lh.toNat ∧
      (running a 2 [(0, 0), (1, 0)]).srcChanged = [] ∧ (running a 2 [(0, 0), (1, 0)]).algo = a :=
  ⟨running_inv a 0 (.inl rfl), rfl, show (2 : BitVec 16) ≠ 0 by decide, show 0 < 1 by decide, rfl, rfl⟩

/-- An RGB565 tile whose first pixel reads the bytes 0 and 1, where the host has changed byte 2. -/
def changedBeside : State := { running .ed2 2 [] with lfmt := .rgb565, lbpp := 2, srcChanged := [2] }

theorem witness_PixelStepWritesCursorPixel_changed_beside :
    MachineInv changedBeside ∧ changedBeside.busy = true ∧ changedBeside.lw ≠ 0 ∧
      changedBeside.curR < changedBeside.lh.toNat ∧ pixelAddress changedBeside ∉ changedBeside.srcChanged ∧
      changedBeside.lfmt = .rgb565 ∧ pixelAddress changedBeside + 1 ∉ changedBeside.srcChanged ∧
      changedBeside.srcChanged ≠ [] :=
  ⟨{ registers := by constructor <;> first | exact small_legal | decide
     memory := by constructor <;> decide
     tile := fun _ => by constructor <;> decide
     scheduler := by constructor <;> decide }, by decide⟩

theorem witness_TileCompletesAfterItsPixelSteps :
    (MachineInv (running .ed3 2 [(0, 0), (1, 0)]) ∧ AtTileStart (running .ed3 2 [(0, 0), (1, 0)])) ∧
    (MachineInv (running .ordered 0 []) ∧ AtTileStart (running .ordered 0 [])) :=
  ⟨⟨running_inv .ed3 0 (.inl rfl), rfl, rfl, rfl, rfl⟩, empty_inv, rfl, rfl, rfl, rfl⟩

theorem witness_TileLeavesRestOfRasterAlone :
    MachineInv (running .disabled 2 [(0, 0), (1, 0)]) ∧ (running .disabled 2 [(0, 0), (1, 0)]).busy = true ∧
      ∃ t, tileRun 3 (running .disabled 2 [(0, 0), (1, 0)]) = .next t :=
  ⟨running_inv .disabled 0 (.inl rfl), rfl, _, rfl⟩

theorem witness_StatelessTileThresholdsEveryPixel :
    ∀ a ∈ [DitherMode.disabled, .ordered],
      MachineInv (running a 2 [(0, 0), (1, 0)]) ∧ AtTileStart (running a 2 [(0, 0), (1, 0)]) ∧
        ((running a 2 [(0, 0), (1, 0)]).algo = .disabled ∨ (running a 2 [(0, 0), (1, 0)]).algo = .ordered) ∧
        ∃ t, tileRun 3 (running a 2 [(0, 0), (1, 0)]) = .next t := by
  intro a ha
  refine ⟨running_inv a 0 (.inl rfl), ⟨rfl, rfl, rfl, rfl⟩, ?_, ?_⟩
  · fin_cases ha <;> decide
  · fin_cases ha <;> exact ⟨_, rfl⟩

/-- The all-black and the all-white tile of two pixels, under either error diffusion. -/
theorem witness_SaturatedTileLeavesNoError :
    ∀ a ∈ [DitherMode.ed2, .ed3], ∀ v ∈ [(0 : Byte), 255],
      (v.toNat = 0 ∨ v.toNat = 255) ∧ MachineInv (running a 2 [(0, v), (1, v)]) ∧
        AtTileStart (running a 2 [(0, v), (1, v)]) ∧ CellsZero (running a 2 [(0, v), (1, v)]) ∧
        (a = .ed2 ∨ a = .ed3) ∧
        (∀ r c, r < (running a 2 [(0, v), (1, v)]).lh.toNat → c < (running a 2 [(0, v), (1, v)]).lw.toNat →
          tileLuma (running a 2 [(0, v), (1, v)]) r c = v.toNat) ∧
        ∃ t, tileRun 3 (running a 2 [(0, v), (1, v)]) = .next t := by
  intro a ha v hv
  have hv' : v = 0 ∨ v = 255 := by simpa using hv
  have ha' : a = .ed2 ∨ a = .ed3 := by simpa using ha
  refine ⟨by rcases hv' with rfl | rfl <;> decide, running_inv a v hv', ⟨rfl, rfl, rfl, rfl⟩,
    running_cellsZero a v, ha', ?_, ?_⟩
  · intro r c hr hc
    have hr : r < 1 := hr
    have hc : c < 2 := hc
    interval_cases r; interval_cases c <;> rcases hv' with rfl | rfl <;> rfl
  · rcases hv' with rfl | rfl <;> rcases ha' with rfl | rfl <;> exact ⟨_, rfl⟩

theorem witness_AccumulatorCellsStayBounded :
    MachineInv (running .ed3 2 [(0, 0), (1, 0)]) ∧ AtTileStart (running .ed3 2 [(0, 0), (1, 0)]) ∧
      CellsZero (running .ed3 2 [(0, 0), (1, 0)]) ∧ (running .ed3 2 [(0, 0), (1, 0)]).algo = .ed3 ∧
      ∃ t, tileRun 1 (running .ed3 2 [(0, 0), (1, 0)]) = .next t ∧ t.busy = true :=
  ⟨running_inv .ed3 0 (.inl rfl), ⟨rfl, rfl, rfl, rfl⟩, running_cellsZero .ed3 0, rfl, _, rfl, rfl⟩

theorem witness_FloydSteinbergSpreadsError :
    5 + 2 < small.acc.row0.length ∧ 5 + 2 < small.acc.row1.length := by decide

theorem witness_StuckiSpreadsError :
    3 + 4 < small.acc.row0.length ∧ 3 + 4 < small.acc.row1.length ∧ 3 + 4 < small.acc.row2.length := by decide

theorem witness_RowStartZeroesFarthestRow :
    (DitherMode.ed3 = .ed2 ∨ DitherMode.ed3 = .ed3) ∧ 1 ≤ 1 ∧ 1 < 2 + padOf .ed3 := by decide

/-! ## Witnesses: the refresh scheduler -/

theorem witness_DirtyTickStartsCycle : dirtyIdle.schedState = .idle ∧ dirtyIdle.dirty = true := by decide

theorem witness_OtherTickChangesNothing :
    (waiting .draw .draw small).schedState = .refreshInProgress ∧ small.dirty = false := by decide

/-- The last partial decision and the full one. -/
theorem witness_PowerOnOkDecidesMode :
    ((waiting .powerOn .powerOn dirtyIdle).outstanding = some .powerOn ∧
      (waiting .powerOn .powerOn dirtyIdle).partialCount.toNat < (waiting .powerOn .powerOn dirtyIdle).threshold.toNat) ∧
    ((waiting .powerOn .powerOn small).outstanding = some .powerOn ∧
      (waiting .powerOn .powerOn small).threshold.toNat ≤ (waiting .powerOn .powerOn small).partialCount.toNat) := by
  decide

theorem witness_SelectLutOkStartsDraw :
    (waiting .selectLut .selectLut small).outstanding = some .selectLut := rfl

/-- A draw pass at its last two bytes. -/
def drawPass (i : Nat) : State :=
  { small with
    schedState := .refreshInProgress, schedPhase := .draw, drawIndex := i, drawBuf := List.replicate i 0, dirty := true }

theorem witness_DrawStepReadsNextByte :
    ((drawPass 4).schedPhase = .draw ∧ (drawPass 4).outstanding = none ∧
      (drawPass 4).drawIndex + 1 < (drawPass 4).cfg.rasterBytes) ∧
    ((drawPass 5).schedPhase = .draw ∧ (drawPass 5).outstanding = none ∧
      (drawPass 5).drawIndex + 1 = (drawPass 5).cfg.rasterBytes) := by decide

theorem witness_DrawOkGoesToNextPlane :
    ((waiting .draw .draw small).outstanding = some .draw ∧
      (waiting .draw .draw small).plane.toNat + 1 < small.cfg.panelPlanes) ∧
    ({ waiting .draw .draw small with plane := 1 }.outstanding = some .draw ∧
      small.cfg.panelPlanes ≤ { waiting .draw .draw small with plane := 1 }.plane.toNat + 1) := by decide

theorem witness_RefreshOkPowersOff : (waiting .refresh .refresh small).outstanding = some .refresh := rfl

theorem witness_PowerOffOkCompletesCycle : (waiting .powerOff .powerOff small).outstanding = some .powerOff := rfl

theorem witness_PanelFailAbortsCycle :
    { waiting .draw .draw small with plane := 1 }.outstanding = some .draw ∧
      (waiting .powerOn .powerOn small).outstanding = some .powerOn ∧
      (waiting .selectLut .selectLut small).outstanding = some .selectLut ∧
      (waiting .refresh .refresh small).outstanding = some .refresh ∧
      (waiting .powerOff .powerOff small).outstanding = some .powerOff := ⟨rfl, rfl, rfl, rfl, rfl⟩

theorem witness_CleanCycleSendsWholeRaster :
    MachineInv dirtyIdle ∧ dirtyIdle.resetHeld = false ∧ dirtyIdle.schedState = .idle ∧ dirtyIdle.dirty = true ∧
      dirtyIdle.cfg.panelPlanes = 1 := ⟨dirtyIdle_inv, rfl, rfl, rfl, rfl⟩

theorem witness_DecisionsCountWithPeriod : { small with threshold := 5 }.partialCount = 0 := rfl

theorem witness_SchedulerWritesOnlyItsOwn :
    (∃ t, agentStep .tick dirtyIdle = .next t) ∧ (∃ t, agentStep .schedStep (drawPass 5) = .next t) ∧
      ∃ t, agentStep (.panelAnswer .ok) (waiting .powerOff .powerOff small) = .next t :=
  ⟨⟨_, rfl⟩, ⟨_, rfl⟩, ⟨_, rfl⟩⟩

/-! ## Witnesses: the whole machine -/

theorem witness_EveryStepKeepsTheInvariant : MachineInv dirtyIdle ∧ ∃ t, step dirtyIdle = .next t :=
  ⟨dirtyIdle_inv, _, rfl⟩

theorem witness_InvariantStepsNeverStop :
    MachineInv small ∧ MachineInv (running .ed3 2 [(0, 255), (1, 255)]) ∧ MachineInv dirtyIdle :=
  ⟨small_inv, running_inv .ed3 255 (.inr rfl), dirtyIdle_inv⟩

theorem witness_EveryStepKeepsPaddingLight :
    MachineInv dirtyIdle ∧ PaddingLight dirtyIdle ∧ ∃ t, step dirtyIdle = .next t :=
  ⟨dirtyIdle_inv, fun _ _ _ _ _ => by simp [rasterPixel, rasterRead, dirtyIdle, small, resetWith, Memory.read,
    Memory.lookup, rasterUnlisted], _, rfl⟩

theorem witness_RunningTileIsNotDisturbed :
    (running .ed2 2 [(0, 0), (1, 0)]).busy = true ∧
      ∃ t, handle (.busWrite 0x010 32 0x00000301) (running .ed2 2 [(0, 0), (1, 0)]) = .next t ∧ t.busy = true :=
  ⟨rfl, _, rfl, rfl⟩

theorem witness_DirtyChangesOnlyByTileAndCycle :
    (∃ t, handle .tileStep (running .ed2 0 []) = .next t ∧ t.dirty ≠ (running .ed2 0 []).dirty) ∧
    (∃ t, handle (.panelAnswer .ok) (waiting .powerOff .powerOff small) = .next t ∧
      t.dirty ≠ (waiting .powerOff .powerOff small).dirty) ∧
    ∃ t, handle .resetAssert dirtyIdle = .next t ∧ t.dirty ≠ dirtyIdle.dirty :=
  ⟨⟨_, rfl, by decide⟩, ⟨_, rfl, by decide⟩, ⟨_, rfl, by decide⟩⟩

theorem witness_ResultAndModeHaveFewWriters :
    (∃ t, handle (cmdWrite 0xF81F0206) small = .next t ∧ t.result ≠ small.result) ∧
    (∃ t, handle (cmdWrite 0x00000301) small = .next t ∧ t.mode ≠ small.mode) ∧
    ∃ t, handle .hostStep { small with program := [.write 0x010 0x00000301] } = .next t ∧ t.mode ≠ small.mode :=
  ⟨⟨_, rfl, by decide⟩, ⟨_, rfl, by decide⟩, ⟨_, rfl, by decide⟩⟩

theorem witness_TileAndWaitIdleTakeEffect :
    small.resetHeld = false ∧ (65535 < 65536 ∧ 0 < 65536 ∧ 2 ^ 32 - 1 < 2 ^ 32) ∧ 65536 ≤ 65536 ∧
      ({ small with program := [.waitIdle] }.program = .waitIdle :: [] ∧ small.busy = false) ∧
      ({ running .ordered 0 [] with program := [.waitIdle] }.program = .waitIdle :: [] ∧
        (running .ordered 0 []).busy = true) := by decide

/-! ### A weakly fair run: every agent in turn -/

/-- Every agent takes a step in every five. -/
def rounds (n : Nat) : Event :=
  match n % 5 with
  | 0 => .hostStep
  | 1 => .tileStep
  | 2 => .schedStep
  | 3 => .tick
  | _ => .panelAnswer .ok

/-- The run from a state under `rounds`. -/
def follow (s : State) : Nat → State
  | 0 => s
  | n + 1 =>
    match step (offer (rounds n) (follow s n)) with
    | .next t => t
    | .fault _ => follow s n
    | .refused _ => follow s n

/-- Reset is released, no pixel can be left, and the host at most waits. -/
def Quiet (s : State) : Prop := s.resetHeld = false ∧ s.lw = 0 ∧ (s.program = [] ∨ s.program = [.waitIdle])

theorem quiet_of_eq {s t : State} (h : Quiet s) (e : t.resetHeld = s.resetHeld ∧ t.lw = s.lw ∧ t.program = s.program) :
    Quiet t := by
  simpa [Quiet, e] using h

theorem quiet_hostStep {s : State} (h : Quiet s) : ∃ t, hostStep s = .next t ∧ Quiet t := by
  rcases h.2.2 with hp | hp
  · exact ⟨s, by simp [hostStep, hp], h⟩
  · refine ⟨pollStatus [] s, by simp [hostStep, hp], ?_⟩
    rw [pollStatus_eq]
    split
    · exact quiet_of_eq h (by simp)
    · exact ⟨by simpa using h.1, by simpa using h.2.1, .inl rfl⟩

theorem quiet_tileStep {s : State} (h : Quiet s) : ∃ t, tileStep s = .next t ∧ Quiet t := by
  have hp : pixelLeft s = false := by simp [pixelLeft, h.2.1]
  cases hb : s.busy
  · exact ⟨s, by simp [tileStep, hb], h⟩
  · exact ⟨completeTile s, by simp [tileStep, hb, hp], quiet_of_eq h (by simp)⟩

theorem quiet_schedStep {s : State} (h : Quiet s) : Quiet (schedStep s) := by
  refine quiet_of_eq h ?_
  unfold schedStep issueDrawWhenRead readDrawByte
  split_ifs <;> simp

theorem quiet_tick {s : State} (h : Quiet s) : Quiet (tick s) := by
  rcases tick_cases s with ⟨_, _, e⟩ | ⟨_, e⟩ <;> rw [e]
  · exact quiet_of_eq h (by simp [startCycle])
  · exact quiet_of_eq h (by simp)

theorem quiet_panelAnswer {s : State} (h : Quiet s) : Quiet (panelAnswer .ok s) := by
  refine quiet_of_eq h ?_
  rcases panelAnswer_cases .ok s with ⟨_, e⟩ | ⟨op, _, _, e⟩ | ⟨_, _, hf, _⟩
  · simp [e]
  · rw [e]
    cases op <;> simp [onPanelOk, decideMode, startDraw, nextPlane, startPowerOff, completeCycle]
    split_ifs <;> simp
  · cases hf

theorem quiet_step {s : State} (n : Nat) (h : Quiet s) : ∃ t, step (offer (rounds n) s) = .next t ∧ Quiet t := by
  have h0 : Quiet { s with schedule := [] } := h
  rw [step_offer, handle_released _ h0.1]
  unfold rounds
  split
  · exact quiet_hostStep h0
  · exact quiet_tileStep h0
  · exact ⟨_, rfl, quiet_schedStep h0⟩
  · exact ⟨_, rfl, quiet_tick h0⟩
  · exact ⟨_, rfl, quiet_panelAnswer h0⟩

theorem follow_quiet {s : State} (h : Quiet s) (n : Nat) : Quiet (follow s n) := by
  induction n with
  | zero => exact h
  | succ n ih =>
    obtain ⟨t, ht, hq⟩ := quiet_step n ih
    simpa only [follow, ht] using hq

theorem follow_isRun {s : State} (h : Quiet s) : IsRun (follow s) rounds := by
  intro n
  obtain ⟨t, ht, _⟩ := quiet_step n (follow_quiet h n)
  simp only [follow, ht]

theorem rounds_fair (σ : Nat → State) : WeaklyFair σ rounds := by
  intro a n _
  cases a
  · exact ⟨5 * n, by omega, by simp [Agent.takes, rounds]⟩
  · exact ⟨5 * n + 1, by omega, by simp [Agent.takes, rounds, Nat.add_mod]⟩
  · exact ⟨5 * n + 2, by omega, by simp [Agent.takes, rounds, Nat.add_mod]⟩
  · exact ⟨5 * n + 3, by omega, by simp [Agent.takes, rounds, Nat.add_mod]⟩
  · exact ⟨5 * n + 4, by omega, by simp [Agent.takes, rounds, Nat.add_mod]⟩

/-- An empty tile runs, the host waits for it, and a refresh cycle is under way. -/
def underWay : State :=
  { running .ordered 0 [] with
    program := [.waitIdle], schedState := .refreshInProgress, schedPhase := .powerOn, outstanding := some .powerOn }

theorem underWay_inv : MachineInv underWay where
  registers := by constructor <;> first | exact small_legal | decide
  memory := by constructor <;> decide
  tile := fun _ => by constructor <;> decide
  scheduler := by constructor <;> decide

theorem witness_FairRunsEndWaitsAndCycles :
    IsRun (follow underWay) rounds ∧ WeaklyFair (follow underWay) rounds ∧ MachineInv (follow underWay 0) ∧
      (follow underWay 0).resetHeld = false ∧ (follow underWay 0).program = .waitIdle :: [] ∧
      (∀ n, rounds n ≠ .resetAssert ∧ ∀ off size d, rounds n ≠ .busWrite off size d) ∧
      (follow underWay 0).schedState = .refreshInProgress := by
  refine ⟨follow_isRun ⟨rfl, rfl, .inr rfl⟩, rounds_fair _, underWay_inv, rfl, rfl, fun n => ?_, rfl⟩
  unfold rounds
  split <;> simp

end Sys2Proof.Tests
end

section
/-! PROOFS. The state after reset (10_state.md R52, 70_reset_and_hazards.md R265). -/

namespace Sys2Proof.Proofs

open Sys2Proof Sys2Proof.Machine

/-! ### Asserting reset -/

/-- The assertion of reset is the one event that does the same whether or not reset is already held (R265). -/
theorem handle_resetAssert (s : State) : handle .resetAssert s = .next (assertReset s) := by
  cases h : s.resetHeld with
  | true => exact handle_held _ h
  | false => exact handle_released _ h

/-- With no byte listed, every raster byte is light (R50, R52). -/
theorem rasterRead_of_raster_nil {s : State} (h : s.raster = []) (i : Nat) : rasterRead s i = 0 := by
  simp [rasterRead, Memory.read, Memory.lookup, rasterUnlisted, h]

/-- Without a pending cause the interrupt line is low, whatever is enabled (R248). -/
theorem irq_of_intStatus_zero {s : State} (h : s.intStatus = 0) : irq s = false := by
  simp [irq, h]

/-- Settles O16. The event has one effect, held or not (`handle_resetAssert`); the fields of that effect are R52's values
by definition, and the raster bytes and the irq line follow from the empty raster and from INT_STATUS = 0. -/
theorem assertedResetSetsEveryRegister : Obligations.AssertedResetSetsEveryRegister := by
  intro s
  have raster_light : ∀ i, rasterRead (assertReset s) i = 0 := rasterRead_of_raster_nil rfl
  have irq_low : irq (assertReset s) = false := irq_of_intStatus_zero rfl
  refine ⟨assertReset s, handle_resetAssert s, ?_⟩
  simp only [raster_light, irq_low, implies_true, and_true]
  simp [assertReset, resetWith]

end Sys2Proof.Proofs
end

section
/-! PROOFS. Transfers on the register bus (20_memory.md R61 to R64, R72): where an offset points, what a transfer there
answers, and the four statements on the responses. -/

namespace Sys2Proof.Proofs

open Sys2Proof Sys2Proof.Machine Sys2Proof.Claims

/-! ### The address decode (R20, R72) -/

/-- The register map of the model is the table of R20. -/
theorem mem_registerOffsets_iff (off : Nat) : off ∈ registerOffsets ↔ ∃ r, regOffset r = off := by
  have table : registerOffsets = allRegs.map regOffset := rfl
  have complete : ∀ r, r ∈ allRegs := by intro r; cases r <;> decide
  simp [table, complete]

theorem readOnlyOffsets_subset_registerOffsets : readOnlyOffsets ⊆ registerOffsets := by decide

/-- The window that the model decodes ends after ceil(RASTER_BYTES / 4) words, as R72 has it. -/
theorem inWindow_iff (p : Params) (off : Nat) :
    InWindow p off ↔ windowBase ≤ off ∧ off < windowBase + 4 * windowWords p := by
  have words : windowWords p = (p.screenW + 7) / 8 * p.screenH / 4 +
      (if (p.screenW + 7) / 8 * p.screenH % 4 = 0 then 0 else 1) := by
    unfold windowWords Params.rasterBytes Params.bytesPerRow
    split <;> omega
  rw [InWindow, words, windowBase]

theorem locate_regOffset (p : Params) (r : Reg) : locate p (regOffset r) = .reg r := by
  cases r <;> rfl

theorem locate_of_inWindow {p : Params} {off : Nat} (h : InWindow p off) :
    locate p off = .window ((off - windowBase) / 4) := by
  obtain ⟨above, below⟩ := (inWindow_iff p off).mp h
  simp [locate, above, below]

/-- An offset outside R20's table and outside the window points at nothing (R64). -/
theorem locate_of_unnamed {p : Params} {off : Nat} (hreg : off ∉ registerOffsets) (hwin : ¬InWindow p off) :
    locate p off = .reserved := by
  rw [mem_registerOffsets_iff] at hreg
  rw [inWindow_iff] at hwin
  unfold locate
  split_ifs with above below
  · exact absurd ⟨above, below⟩ hwin
  · rfl
  · have none_found : allRegs.find? (fun r => regOffset r == off) = none := by
      simpa using fun r _ h => hreg ⟨r, h⟩
    rw [none_found]

/-! ### What a transfer answers (R61 to R64) -/

section
variable {off : Offset} {size : Nat} {d : Word} {s : State}

theorem transferLegal_eq_false (h : size ≠ 32 ∨ off.toNat % 4 ≠ 0) : transferLegal off size = false := by
  rw [← Bool.not_eq_true, transferLegal_iff]
  omega

theorem transferLegal_of_aligned (h : off.toNat % 4 = 0) : transferLegal off 32 = true :=
  (transferLegal_iff off 32).mpr ⟨rfl, h⟩

theorem busRead_illegal (h : size ≠ 32 ∨ off.toNat % 4 ≠ 0) :
    busRead off size s = replied .slverr (some 0) s := by
  simp [busRead, transferLegal_eq_false h, setReply, replied]

theorem busWrite_illegal (h : size ≠ 32 ∨ off.toNat % 4 ≠ 0) :
    busWrite off size d s = .next (replied .slverr none s) := by
  simp [busWrite, transferLegal_eq_false h, setReply, replied]

theorem busRead_reserved (ha : off.toNat % 4 = 0) (hl : locate s.cfg off.toNat = .reserved) :
    busRead off 32 s = replied .slverr (some 0) s := by
  simp [busRead, transferLegal_of_aligned ha, hl, setReply, replied]

theorem busRead_window {k : Nat} (ha : off.toNat % 4 = 0) (hl : locate s.cfg off.toNat = .window k) :
    busRead off 32 s = replied .okay (some (windowWord s k)) s := by
  simp [busRead, transferLegal_of_aligned ha, hl, setReply, replied]

theorem busWrite_reserved (ha : off.toNat % 4 = 0) (hl : locate s.cfg off.toNat = .reserved) :
    busWrite off 32 d s = .next (replied .slverr none s) := by
  simp [busWrite, transferLegal_of_aligned ha, hl, setReply, replied]

theorem busWrite_window {k : Nat} (ha : off.toNat % 4 = 0) (hl : locate s.cfg off.toNat = .window k) :
    busWrite off 32 d s = .next (replied .slverr none s) := by
  simp [busWrite, transferLegal_of_aligned ha, hl, setReply, replied]

theorem busWrite_register {r : Reg} (ha : off.toNat % 4 = 0) (hr : regOffset r = off.toNat) :
    busWrite off 32 d s = writeReg r d s := by
  simp [busWrite, transferLegal_of_aligned ha, ← hr, locate_regOffset]

/-- The registers that take no write are those of R63's list. -/
theorem writeReg_readOnly {r : Reg} (h : regOffset r ∈ readOnlyOffsets) :
    writeReg r d s = .next (replied .slverr none s) := by
  cases r with
  | cmd | tileOrigin | tileSize | srcAddr | err | intStatus | intEnable | threshold => exact absurd h (by decide)
  | id | geometry | caps | result | mode | status | partialCount | accAlloc | fallbackCount | panelFailCount
  | lastPanelFail => rfl

theorem writeReg_err : writeReg .err d s = .next (replied .okay none (clearCmdError s)) := rfl

end

/-! ### A word of the RASTER window (R72, R73) -/

/-- A byte joined on the right is the lowest digit in base 256. -/
theorem toNat_append_byte {n : Nat} (high : BitVec n) (low : Byte) :
    (high ++ low).toNat = 256 * high.toNat + low.toNat := by
  rw [BitVec.toNat_append, ← Nat.shiftLeft_add_eq_or_of_lt low.isLt, Nat.shiftLeft_eq]
  omega

theorem toNat_windowByte (s : State) (i : Nat) : (windowByte s i).toNat = shownByte s i := by
  simp only [windowByte, shownByte, Params.rasterBytes, Params.bytesPerRow]
  exact apply_ite BitVec.toNat _ _ _

theorem toNat_windowWord (s : State) (k : Nat) :
    (windowWord s k).toNat =
      shownByte s (4 * k) + 256 * shownByte s (4 * k + 1) + 65536 * shownByte s (4 * k + 2) +
        16777216 * shownByte s (4 * k + 3) := by
  simp only [windowWord, toNat_append_byte, toNat_windowByte]
  omega

/-- The window of the largest raster that R7 allows ends at the top of the 20-bit register space. -/
theorem lt_of_inWindow {p : Params} {off : Nat} (hp : p.rasterBytes ≤ 0xFF000) (h : InWindow p off) :
    off < 2 ^ 20 := by
  obtain ⟨_, below⟩ := (inWindow_iff p off).mp h
  unfold windowBase windowWords at below
  omega

/-! ### The statements -/

/-- Settles O19: both transfers stop at the legality check, before the offset is decoded. -/
theorem illegalTransferAnswersSlverr : Obligations.IllegalTransferAnswersSlverr := by
  intro off size d s h
  exact ⟨congrArg _ (busRead_illegal h), busWrite_illegal h⟩

/-- Settles O20. A misaligned reserved offset is turned away by R61 already; an aligned one by the decode. -/
theorem reservedOffsetAnswersSlverr : Obligations.ReservedOffsetAnswersSlverr := by
  intro off d s hreg hwin
  have unnamed : locate s.cfg off.toNat = .reserved := locate_of_unnamed hreg hwin
  by_cases aligned : off.toNat % 4 = 0
  · exact ⟨congrArg _ (busRead_reserved aligned unnamed), busWrite_reserved aligned unnamed⟩
  · exact illegalTransferAnswersSlverr off 32 d s (.inr aligned)

/-- Settles O21: the read-only registers refuse in `writeReg`, the window in the decode, and ERR is writable. -/
theorem readOnlyWriteAnswersSlverr : Obligations.ReadOnlyWriteAnswersSlverr := by
  intro off d s aligned
  refine ⟨fun h => ?_, fun herr => ?_⟩
  · obtain hro | hwin := h
    · obtain ⟨r, hr⟩ := (mem_registerOffsets_iff _).mp (readOnlyOffsets_subset_registerOffsets hro)
      exact (busWrite_register aligned hr).trans (writeReg_readOnly (hr ▸ hro))
    · exact busWrite_window aligned (locate_of_inWindow hwin)
  · have at_err : regOffset .err = off.toNat := herr.symm
    exact ⟨_, (busWrite_register aligned at_err).trans writeReg_err, rfl⟩

/-- Settles O23. The bound on the raster keeps the offset within its 20 bits, so the decode finds word k; the word is
then compared with the sum of its shown bytes as a number. -/
theorem rasterWindowReadsFourBytes : Obligations.RasterWindowReadsFourBytes := by
  intro s k hfits hwin
  have offset : (BitVec.ofNat 20 (0x01000 + 4 * k)).toNat = 0x01000 + 4 * k :=
    Nat.mod_eq_of_lt (lt_of_inWindow hfits hwin)
  have aligned : (BitVec.ofNat 20 (0x01000 + 4 * k)).toNat % 4 = 0 := by omega
  have word_k : locate s.cfg (BitVec.ofNat 20 (0x01000 + 4 * k)).toNat = .window k := by
    rw [offset, locate_of_inWindow hwin]
    simp [windowBase]
  rw [← toNat_windowWord, Reads, BitVec.ofNat_toNat, BitVec.setWidth_eq]
  exact ⟨(windowWord s k).isLt, congrArg _ (busRead_window aligned word_k)⟩

end Sys2Proof.Proofs
end

section
/-! PROOFS. The accumulator cells after a pixel (41_dither_engine.md R163, R164, R166, R168): what one addition stores,
what a whole kernel adds to a cell, and the Floyd-Steinberg pixel. -/

namespace Sys2Proof.Proofs

open Sys2Proof Sys2Proof.Machine Sys2Proof.Claims

/-! ### 16-bit cells (R168) -/

/-- The cell that the model stores holds the number that R168's formula gives. -/
theorem toInt_wrap16 (v : Int) : (wrap16 v).toInt = wrap v := by
  unfold wrap16 wrap
  rw [BitVec.toInt_ofInt, Int.bmod_def]
  omega

/-- A cell holds a signed 16-bit number already. -/
theorem wrap_cell (f : AccFile) (j i : Nat) : wrap (f.cell j i) = f.cell j i := by
  have cell_range : -2 ^ 15 ≤ f.cell j i ∧ f.cell j i < 2 ^ 15 := ⟨BitVec.le_toInt _, BitVec.toInt_lt⟩
  unfold wrap
  omega

/-- Wrapping after each of two additions is wrapping once after both. -/
theorem wrap_wrap_add (v w : Int) : wrap (wrap v + w) = wrap (v + w) := by
  unfold wrap
  omega

/-! ### One addition to a cell (R168) -/

theorem row_setRow {j k : Nat} (hj : j < 3) (hk : k < 3) (f : AccFile) (cells : List Cell) :
    (f.setRow j cells).row k = if k = j then cells else f.row k := by
  interval_cases j <;> interval_cases k <;> rfl

theorem length_row_add {j k : Nat} (hj : j < 3) (hk : k < 3) (f : AccFile) (i : Nat) (v : Int) :
    ((f.add j i v).row k).length = (f.row k).length := by
  rw [AccFile.add, row_setRow hj hk]
  split_ifs with same_row
  · rw [List.length_set, same_row]
  · rfl

/-- An addition inside its row stores the wrapped sum in that cell and keeps every other cell of the three rows. -/
theorem cell_add {f : AccFile} {j k i : Nat} (hj : j < 3) (hk : k < 3) (inside : i < (f.row j).length) (v : Int)
    (m : Nat) :
    (f.add j i v).cell k m = if k = j ∧ m = i then wrap (f.cell k m + v) else f.cell k m := by
  rw [AccFile.cell, AccFile.add, row_setRow hj hk]
  by_cases same_row : k = j
  · by_cases same_cell : m = i
    · simp [same_row, same_cell, inside, toInt_wrap16]
    · simp [same_row, same_cell, AccFile.cell, List.getElem?_set_ne (Ne.symm same_cell)]
  · simp [same_row, AccFile.cell]

/-! ### All contributions of one pixel (R164 to R166) -/

/-- What one neighbour of a kernel contributes to cell i of row j: nothing, unless it is that cell. -/
def contribution (rows shift r c : Nat) (err : Int) (j i : Nat) (n : KernelEntry) : Int :=
  if j = (r + n.dy) % rows ∧ i = c + n.di then floorShift (err * n.k) shift else 0

theorem cell_contribute {rows shift r c j : Nat} {f : AccFile} {n : KernelEntry} (rows_pos : 0 < rows)
    (rows_le : rows ≤ 3) (hj : j < 3) (inside : c + n.di < (f.row ((r + n.dy) % rows)).length) (err : Int) (i : Nat) :
    (contribute rows shift r c err f n).cell j i = wrap (f.cell j i + contribution rows shift r c err j i n) := by
  have ring_row : (r + n.dy) % rows < 3 := (Nat.mod_lt _ rows_pos).trans_le rows_le
  rw [contribute, cell_add ring_row hj inside, contribution]
  split_ifs
  · rfl
  · rw [add_zero, wrap_cell]

/-- A kernel whose cells lie inside the rows adds to every cell the sum of its neighbours' contributions there. As
wrapping once is wrapping at each addition, this needs neither an order nor distinct neighbours. -/
theorem cell_foldl_contribute {rows shift r c j : Nat} (rows_pos : 0 < rows) (rows_le : rows ≤ 3) (hj : j < 3)
    (err : Int) (i : Nat) (kernel : List KernelEntry) (f : AccFile)
    (inside : ∀ n ∈ kernel, c + n.di < (f.row ((r + n.dy) % rows)).length) :
    (kernel.foldl (contribute rows shift r c err) f).cell j i =
      wrap (f.cell j i + (kernel.map (contribution rows shift r c err j i)).sum) := by
  have ring_row (d : Nat) : (r + d) % rows < 3 := (Nat.mod_lt _ rows_pos).trans_le rows_le
  induction kernel generalizing f with
  | nil => simp [wrap_cell]
  | cons n kernel ih =>
    obtain ⟨first_inside, rest_inside⟩ := List.forall_mem_cons.mp inside
    have still_inside : ∀ m ∈ kernel,
        c + m.di < ((contribute rows shift r c err f n).row ((r + m.dy) % rows)).length := by
      intro m hm
      rw [contribute, length_row_add (ring_row _) (ring_row _)]
      exact rest_inside m hm
    rw [List.foldl_cons, ih _ still_inside, cell_contribute rows_pos rows_le hj first_inside, wrap_wrap_add,
      List.map_cons, List.sum_cons, add_assoc]

/-- No contribution leaves the ring (R166). -/
theorem sum_contribution_outside_ring {rows j : Nat} (rows_pos : 0 < rows) (outside : rows ≤ j) (shift r c i : Nat)
    (err : Int) (kernel : List KernelEntry) : (kernel.map (contribution rows shift r c err j i)).sum = 0 := by
  have misses (d : Nat) : j ≠ (r + d) % rows := ((Nat.mod_lt _ rows_pos).trans_le outside).ne'
  exact List.sum_eq_zero (List.forall_mem_map.mpr fun n _ => if_neg fun lands => misses n.dy lands.1)

/-! ### Quantisation (R163) -/

theorem correctedLuma_eq (l : Byte) (e : Int) : correctedLuma l e = correctedOf l e := rfl

theorem quantError_correctedLuma (l : Byte) (e : Int) : quantError (correctedLuma l e) = errOf l e := by
  rw [correctedLuma_eq, quantError, quantDark, errOf]
  by_cases dark : correctedOf l e < 128 <;> simp [dark]

/-! ### The Floyd-Steinberg pixel (R164) -/

/-- The Floyd-Steinberg kernel stays in the first two rows and within two cells of the pixel's column. -/
theorem floydSteinberg_inside {f : AccFile} {c : Nat} (h0 : c + 2 < f.row0.length) (h1 : c + 2 < f.row1.length)
    (r : Nat) : ∀ n ∈ floydSteinberg, c + n.di < (f.row ((r + n.dy) % 2)).length := by
  intro n hn
  have reach : n.di ≤ 2 := (by decide : ∀ n ∈ floydSteinberg, n.di ≤ 2) n hn
  obtain even | odd := Nat.mod_two_eq_zero_or_one (r + n.dy)
  · rw [even]; exact (Nat.add_le_add_left reach c).trans_lt h0
  · rw [odd]; exact (Nat.add_le_add_left reach c).trans_lt h1

/-- A neighbour lands in the cell that lies as far below and right of cell c as the kernel says (R164, R166). -/
theorem lands_iff (r : Nat) {c j i dy di : Nat} (hj : j < 2) (hdy : dy < 2) :
    (j = (r + dy) % 2 ∧ i = c + di) ↔ ((j + 2 - r % 2) % 2 = dy ∧ (i : Int) - c = di) := by
  omega

/-- In a row of the ring the four neighbours add up to the one weight that R164's table gives the cell. -/
theorem sum_contribution_floydSteinberg {j : Nat} (hj : j < 2) (r c i : Nat) (err : Int) :
    (floydSteinberg.map (contribution 2 4 r c err j i)).sum =
      err * fsWeight ((j + 2 - r % 2) % 2) ((i : Int) - c) / 16 := by
  have down_lt : (j + 2 - r % 2) % 2 < 2 := Nat.mod_lt _ (by decide)
  simp only [floydSteinberg, contribution, floorShift, lands_iff r hj (by decide : 0 < 2),
    lands_iff r hj (by decide : 1 < 2), List.map_cons, List.map_nil, List.sum_cons, List.sum_nil, fsWeight]
  generalize (j + 2 - r % 2) % 2 = down at down_lt ⊢
  generalize (i : Int) - c = right
  interval_cases down
  · by_cases right_two : right = 2 <;> simp [right_two]
  · by_cases left : right = 0
    · simp [left]
    by_cases below : right = 1
    · simp [below]
    by_cases right_two : right = 2 <;> simp [left, below, right_two]

/-- Settles O37. The decision and the error are R163's; the cells are those of `cell_foldl_contribute`, with the
kernel's sum read off R164's table in the two rows of the ring, and no contribution in the third. -/
theorem floydSteinbergSpreadsError : Obligations.FloydSteinbergSpreadsError := by
  rintro p l x y r c f h0 h1 e rfl
  refine ⟨rfl, fun j i hj => ?_⟩
  have cells : (ditherPixel .ed2 p l x y r c f).2 =
      floydSteinberg.foldl (contribute 2 4 r c (errOf l (f.cell (r % 2) (c + 1)))) f :=
    congrArg (diffuse .ed2 r c · f) (quantError_correctedLuma l _)
  rw [cells, cell_foldl_contribute (by decide) (by decide) hj _ _ _ _ (floydSteinberg_inside h0 h1 r)]
  split_ifs with in_ring
  · rw [sum_contribution_floydSteinberg in_ring]
  · rw [sum_contribution_outside_ring (by decide) (Nat.le_of_not_lt in_ring), add_zero, wrap_cell]

end Sys2Proof.Proofs
end

section
/-! PROOFS. PixelWrite (42_raster_compositor.md R180, R181): which raster bit it sets and which it leaves. -/

namespace Sys2Proof.Proofs

open Sys2Proof Sys2Proof.Machine Sys2Proof.Claims

/-- R181's mask: the addressed bit takes the value, "the other seven bits of the byte keep their values". -/
theorem getLsbD_putBit (v : Byte) (k : Nat) (dark : Bool) {b : Nat} (hb : b < 8) :
    (putBit v k dark).getLsbD b = if b = k then dark else v.getLsbD b := by
  have mask : (1#8 <<< k).getLsbD b = decide (b = k) := by
    rw [← BitVec.twoPow_eq, BitVec.getLsbD_twoPow, Bool.eq_iff_iff]
    simp only [Bool.and_eq_true, decide_eq_true_eq]
    omega
  cases dark
  case false =>
    have cleared : (putBit v k false).getLsbD b = (v.getLsbD b && !decide (b = k)) := by
      simp only [putBit, Bool.false_eq_true, ↓reduceIte, BitVec.getLsbD_and, BitVec.getLsbD_not, mask, hb,
        decide_true, Bool.true_and]
    rw [cleared]
    split_ifs with addressed <;> simp [addressed]
  case true =>
    have set_bit : (putBit v k true).getLsbD b = (v.getLsbD b || decide (b = k)) := by
      simp only [putBit, ↓reduceIte, BitVec.getLsbD_or, mask]
    rw [set_bit]
    split_ifs with addressed <;> simp [addressed]

/-- Each raster bit after a pixel write, by its byte and its place in the byte. -/
theorem rasterBit_pixelWrite {s : State} {n : Nat} (h : Memory.wf rasterUnlisted n s.raster) (x y : Nat) (dark : Bool)
    (i : Nat) {b : Nat} (hb : b < 8) :
    rasterBit (pixelWrite x y dark s) i b =
      if i = byteIndex s.cfg x y ∧ b = bitIndex x then dark else rasterBit s i b := by
  rw [pixelWrite_eq, rasterBit]
  by_cases here : i = byteIndex s.cfg x y
  · subst here
    rw [rasterRead_rasterWrite_same h, getLsbD_putBit _ _ _ hb]
    simp only [true_and, rasterBit]
  · rw [rasterRead_rasterWrite_other h (Ne.symm here), if_neg (fun both => here both.1), rasterBit]

/-- Settles O27. The write changes the raster field alone, and `rasterBit_pixelWrite` gives its bits. -/
theorem pixelWriteSetsOneBit : Obligations.PixelWriteSetsOneBit :=
  fun x y dark _ h => ⟨_, rfl, fun i _ hb => rasterBit_pixelWrite h x y dark i hb⟩

end Sys2Proof.Proofs
end

section
/-! PROOFS. The refresh cycle on the panel's OK (43_refresh_scheduler.md R205, R206, R209, R210): which action answers
the request outstanding, what each action does, and the four statements. -/

namespace Sys2Proof.Proofs

open Sys2Proof Sys2Proof.Machine

/-! ### The answer OK (R207) -/

/-- The answer retires the request outstanding, and that request alone selects the scheduler's action. -/
theorem agentStep_panelAnswer_ok {s t : State} {op : PanelOp} (h : s.outstanding = some op)
    (action : onPanelOk op { s with outstanding := none } = t) : agentStep (.panelAnswer .ok) s = .next t := by
  have answered : panelAnswer .ok s = onPanelOk op { s with outstanding := none } := by
    simpa [h] using panelAnswer_cases .ok s
  rw [agentStep, answered, action]

/-! ### The decision of the refresh mode (R205) -/

section
variable {s : State}

theorem decideMode_of_lt (below : s.partialCount.toNat < s.threshold.toNat) :
    decideMode s = issueRequest (.selectLut .partialLut)
      { s with partialCount := s.partialCount + 1, lut := .partialLut, schedPhase := .selectLut } := by
  simp only [decideMode, decidedLut, decidedCount, if_pos below]

theorem decideMode_of_le (reached : s.threshold.toNat ≤ s.partialCount.toNat) :
    decideMode s = issueRequest (.selectLut .fullLut)
      { s with partialCount := 0, lut := .fullLut, schedPhase := .selectLut } := by
  simp only [decideMode, decidedLut, decidedCount, if_neg (Nat.not_lt.mpr reached)]

end

/-- R205's guard: a 16-bit count below another 16-bit number has room for one more, so it does not wrap. -/
theorem toNat_add_one_of_lt {count bound : BitVec 16} (below : count.toNat < bound.toNat) :
    (count + 1).toNat = count.toNat + 1 := by
  bv_omega

/-! ### The next plane (R209) -/

section
variable {s : State}

theorem nextPlane_of_lt (further : s.plane.toNat + 1 < s.cfg.panelPlanes) :
    nextPlane s = { s with plane := s.plane + 1, drawIndex := 0, drawBuf := [] } := by
  rw [nextPlane, if_pos further]

theorem nextPlane_of_le (last : s.cfg.panelPlanes ≤ s.plane.toNat + 1) :
    nextPlane s = issueRequest .refresh { s with plane := 0, schedPhase := .refresh } := by
  rw [nextPlane, if_neg (Nat.not_lt.mpr last)]

end

/-! ### The statements -/

/-- Settles O42. Below THRESHOLD the next count is `PARTIAL_COUNT + 1`, which does not wrap; from THRESHOLD on it is 0. -/
theorem powerOnOkDecidesMode : Obligations.PowerOnOkDecidesMode :=
  fun s outstanding =>
    ⟨fun below => ⟨s.partialCount + 1, toNat_add_one_of_lt below,
      agentStep_panelAnswer_ok outstanding (decideMode_of_lt below)⟩,
    fun reached => agentStep_panelAnswer_ok outstanding (decideMode_of_le reached)⟩

/-- Settles O43. The answer selects `startDraw`, whose fields are R206's by definition. -/
theorem selectLutOkStartsDraw : Obligations.SelectLutOkStartsDraw :=
  fun _ outstanding => agentStep_panelAnswer_ok outstanding rfl

/-- Settles O45. The answer selects `nextPlane`, which repeats the pass or issues REFRESH by the number of planes. -/
theorem drawOkGoesToNextPlane : Obligations.DrawOkGoesToNextPlane :=
  fun _ outstanding =>
    ⟨fun further => agentStep_panelAnswer_ok outstanding (nextPlane_of_lt further),
    fun last => agentStep_panelAnswer_ok outstanding (nextPlane_of_le last)⟩

/-- Settles O46. The answer selects `startPowerOff`, which issues POWER_OFF (R210). -/
theorem refreshOkPowersOff : Obligations.RefreshOkPowersOff :=
  fun _ outstanding => agentStep_panelAnswer_ok outstanding rfl

end Sys2Proof.Proofs
end

section
/-! PROOFS. The interrupt line (60_exceptions.md R248). -/

namespace Sys2Proof.Proofs

open Sys2Proof Sys2Proof.Machine

/-- A word is nonzero exactly when one of its bits is set. -/
theorem ne_zero_iff_exists_bit {n : Nat} (x : BitVec n) : x ≠ 0#n ↔ ∃ b, b < n ∧ x.getLsbD b = true := by
  rw [Ne, BitVec.eq_of_getLsbD_eq_iff]
  simp

/-- Settles O25. The line is the OR of the bits of `INT_STATUS AND INT_ENABLE`, and each such bit is the AND of two. -/
theorem interruptLineFollowsEnabledCauses : Obligations.InterruptLineFollowsEnabledCauses := by
  intro s
  have line : irq s = true ↔ s.intStatus &&& s.intEnable ≠ 0#5 := decide_eq_true_iff
  rw [line, ne_zero_iff_exists_bit]
  simp only [BitVec.getLsbD_and, Bool.and_eq_true]

end Sys2Proof.Proofs
end

section
/-! PROOFS. The decoder's fields and rows as numbers (30_encoding.md R91 to R95): which word is rejected with which of
the decoder's two errors, and which command it names otherwise. -/

namespace Sys2Proof.Proofs

open Sys2Proof Sys2Proof.Claims

/-! ### Fields (R91, R92) -/

theorem toNat_opField (w : Word) : (opField w).toNat = opOf w := by
  simp [opField, opOf, BitVec.extractLsb'_toNat]

theorem toNat_bppField (w : Word) : (bppField w).toNat = w.toNat / 4096 % 8 := by
  simp [bppField, BitVec.extractLsb'_toNat, Nat.shiftRight_eq_div_pow]

theorem ofBits_eq_rgb565_iff (b : BitVec 4) : Format.ofBits b = .rgb565 ↔ b = 2#4 := by
  unfold Format.ofBits
  split_ifs <;> simp_all

theorem fmtField_eq_rgb565_iff (w : Word) : fmtField w = .rgb565 ↔ w.toNat / 256 % 16 = 2 := by
  rw [fmtField, ofBits_eq_rgb565_iff, ← BitVec.toNat_inj]
  simp [BitVec.extractLsb'_toNat, Nat.shiftRight_eq_div_pow]

/-! ### Rows (R92, R94) -/

/-- A row fixes the opcode, which is its pattern, and the reserved bits of that opcode's format. -/
theorem row_mask (i : Instr) : i.row.mask = reservedBits i.row.pattern.toNat ||| 0xFF#32 := by
  cases i <;> simp [Instr.row, reservedBits]

theorem opcode_and_reservedBits (op : Nat) : 0xFF#32 &&& reservedBits op = 0#32 := by
  unfold reservedBits
  split <;> rfl

theorem and_opcode_eq {w p : Word} (names : opOf w = p.toNat) : w &&& 0xFF#32 = p := by
  apply BitVec.eq_of_toNat_eq
  rw [BitVec.toNat_and, ← names]
  exact Nat.and_two_pow_sub_one_eq_mod w.toNat 8

/-- For a word with the row's opcode, matching the row says no more than that the reserved bits are clear. -/
theorem matches_row_iff {w : Word} {i : Instr} (names : opOf w = i.row.pattern.toNat) :
    w &&& i.row.mask = i.row.pattern ↔ w &&& reservedBits (opOf w) = 0#32 := by
  have opcode : w &&& 0xFF#32 = i.row.pattern := and_opcode_eq names
  have disjoint : reservedBits (opOf w) &&& i.row.pattern = 0#32 := by
    rw [← opcode, BitVec.and_comm, BitVec.and_assoc, opcode_and_reservedBits, BitVec.and_zero]
  rw [row_mask, ← names, BitVec.and_or_distrib_left, opcode]
  constructor
  · intro row_matches
    calc w &&& reservedBits (opOf w)
      _ = (w &&& reservedBits (opOf w)) &&& ((w &&& reservedBits (opOf w)) ||| i.row.pattern) := by
          rw [BitVec.and_or_distrib_left, BitVec.and_self, BitVec.and_assoc, disjoint, BitVec.and_zero,
            BitVec.or_zero]
      _ = 0#32 := by rw [row_matches, BitVec.and_assoc, disjoint, BitVec.and_zero]
  · intro clear
    rw [clear, BitVec.zero_or]

theorem checkReserved_of_clear {w : Word} {i : Instr} (names : opOf w = i.row.pattern.toNat)
    (clear : w &&& reservedBits (opOf w) = 0#32) : checkReserved w i = .ok i :=
  if_pos ((matches_row_iff names).mpr clear)

theorem checkReserved_of_set {w : Word} {i : Instr} (names : opOf w = i.row.pattern.toNat)
    (set_bit : w &&& reservedBits (opOf w) ≠ 0#32) : checkReserved w i = .error .reservedBits :=
  if_neg (mt (matches_row_iff names).mp set_bit)

/-! ### The opcode map (R94, R95) -/

theorem decode_illegal {w : Word} (illegal : opOf w = 0 ∨ 8 ≤ opOf w) : decode w = .error .illegalOpcode := by
  rw [decode, toNat_opField]
  generalize opOf w = op at illegal
  match op with
  | 0 | _ + 8 => rfl

/-- The command that a legal opcode names, with the operands of its format (R91, R93, R94). -/
def namedInstr (w : Word) : Instr :=
  match opOf w with
  | 1 => .setMode (modeField w)
  | 2 => .getMode
  | 3 => .setEnabled (enField w)
  | 4 => .isEnabled
  | 5 => .freeBuffers
  | 6 => .sampleLuma (fmtField w) (b0Field w) (b1Field w)
  | _ => .convertArea (fmtField w) (bppField w)

theorem opcode_range {op : Nat} (legal : ¬(op = 0 ∨ 8 ≤ op)) : 1 ≤ op ∧ op ≤ 7 := by omega

/-- A legal opcode leaves only the reserved bits to check. -/
theorem decode_legal {w : Word} (legal : ¬(opOf w = 0 ∨ 8 ≤ opOf w)) : decode w = checkReserved w (namedInstr w) := by
  rw [decode, namedInstr, toNat_opField]
  generalize opOf w = op at legal
  obtain ⟨low, high⟩ := opcode_range legal
  interval_cases op <;> rfl

theorem row_namedInstr {w : Word} (legal : ¬(opOf w = 0 ∨ 8 ≤ opOf w)) :
    opOf w = (namedInstr w).row.pattern.toNat := by
  rw [namedInstr]
  generalize opOf w = op at legal
  obtain ⟨low, high⟩ := opcode_range legal
  interval_cases op <;> simp only [Instr.row] <;> rfl

/-- The second rejection of the decoder (R95). -/
theorem decode_reserved {w : Word} (legal : ¬(opOf w = 0 ∨ 8 ≤ opOf w)) (set_bit : w &&& reservedBits (opOf w) ≠ 0#32) :
    decode w = .error .reservedBits := by
  rw [decode_legal legal, checkReserved_of_set (row_namedInstr legal) set_bit]

theorem decode_clear {w : Word} (legal : ¬(opOf w = 0 ∨ 8 ≤ opOf w)) (clear : w &&& reservedBits (opOf w) = 0#32) :
    decode w = .ok (namedInstr w) := by
  rw [decode_legal legal, checkReserved_of_clear (row_namedInstr legal) clear]

end Sys2Proof.Proofs
end

section
/-! PROOFS. Command errors (60_exceptions.md R240 to R242): the model's first failing check, the same as a code on plain
numbers, and what the issue of a word does for each outcome. -/

namespace Sys2Proof.Proofs

open Sys2Proof Sys2Proof.Machine Sys2Proof.Claims

/-! ### The error itself (R240, R241) -/

theorem errorCode_eq_codeOf (e : CmdError) : errorCode e = codeOf e := by
  cases e <;> rfl

theorem raiseCmdError_eq_rejected (e : CmdError) (s : State) : raiseCmdError e s = rejected (codeOf e) s := by
  rw [raiseCmdError, errorCode_eq_codeOf]
  rfl

/-! ### The argument checks (R141) -/

theorem toNat_low_half (v : Word) : (v.extractLsb' 0 16).toNat = v.toNat % 65536 := by
  simp [BitVec.extractLsb'_toNat]

theorem toNat_high_half (v : Word) : (v.extractLsb' 16 16).toNat = v.toNat / 65536 := by
  simp only [BitVec.extractLsb'_toNat, Nat.shiftRight_eq_div_pow]
  omega

theorem codeOf_convertArgError (fmt : Format) (bpp : BitVec 3) (s : State) :
    (convertArgError fmt bpp s).map codeOf = argCode (decide (fmt = .rgb565)) bpp.toNat s := by
  simp only [convertArgError, argCode, tileX, tileY, tileW, tileH, toNat_low_half, toNat_high_half, argX, argY, argW,
    argH, decide_eq_true_eq, apply_ite (Option.map codeOf)]
  rfl

/-! ### The first check that fails (R242) -/

/-- The argument check of a command: CONVERT_AREA alone has one. -/
def argError : Instr → State → Option CmdError
  | .convertArea fmt bpp, s => convertArgError fmt bpp s
  | _, _ => none

/-- The check of R242 that a word fails, in the model's terms: BUSY, then the decoder's rejection, then the arguments. -/
def commandError (w : Word) (s : State) : Option CmdError :=
  if s.busy then some .busy
  else
    match decode w with
    | .error e => some e
    | .ok i => argError i s

section
variable {w : Word} {s : State}

theorem commandError_busy (busy : s.busy = true) : commandError w s = some .busy := if_pos busy

theorem commandError_undecoded {e : CmdError} (ready : s.busy = false) (undecoded : decode w = .error e) :
    commandError w s = some e := by
  simp [commandError, ready, undecoded]

theorem commandError_decoded {i : Instr} (ready : s.busy = false) (decoded : decode w = .ok i) :
    commandError w s = argError i s := by
  simp [commandError, ready, decoded]

end

theorem codeOf_argError_namedInstr {w : Word} (legal : ¬(opOf w = 0 ∨ 8 ≤ opOf w)) (s : State) :
    (argError (namedInstr w) s).map codeOf =
      if opOf w = 7 then argCode (decide (w.toNat / 256 % 16 = 2)) (w.toNat / 4096 % 8) s else none := by
  have of_fields : (convertArgError (fmtField w) (bppField w) s).map codeOf =
      argCode (decide (w.toNat / 256 % 16 = 2)) (w.toNat / 4096 % 8) s := by
    simp only [codeOf_convertArgError, toNat_bppField, fmtField_eq_rgb565_iff]
  rw [namedInstr, ← of_fields]
  generalize opOf w = op at legal
  obtain ⟨low, high⟩ := opcode_range legal
  interval_cases op <;> rfl

/-- The codes that R242 gives in terms of the bits of the word are those of the model's checks. -/
theorem firstError_eq (w : Word) (s : State) : firstError w s = (commandError w s).map codeOf := by
  cases busy : s.busy with
  | true =>
    rw [commandError_busy busy, firstError, if_pos busy]
    rfl
  | false =>
    simp only [firstError, busy, Bool.false_eq_true, ↓reduceIte]
    split_ifs with illegal set_bit convert
    · rw [commandError_undecoded busy (decode_illegal illegal)]; rfl
    · rw [commandError_undecoded busy (decode_reserved illegal set_bit)]; rfl
    · rw [commandError_decoded busy (decode_clear illegal (not_not.mp set_bit)), codeOf_argError_namedInstr illegal,
        if_pos convert]
    · rw [commandError_decoded busy (decode_clear illegal (not_not.mp set_bit)), codeOf_argError_namedInstr illegal,
        if_neg convert]

/-! ### A command that passes reports no error -/

/-- ERR has the same fields in both states. -/
def SameErr (t s : State) : Prop := t.errCode = s.errCode ∧ t.errOverflow = s.errOverflow

theorem sameErr_setModeEffect (m : DitherMode) (s : State) : SameErr (setModeEffect m s) s := by
  obtain ⟨_, unchanged⟩ | ⟨_, changed⟩ := setModeEffect_cases m s
  · rw [unchanged]; exact ⟨rfl, rfl⟩
  · rw [changed]; exact ⟨rfl, rfl⟩

theorem sameErr_chooseAlgo (width : Nat) (s : State) : SameErr (chooseAlgo width s).2 s := by
  cases diffusing : diffuses s.mode with
  | false => rw [chooseAlgo_stateless width diffusing]; exact ⟨rfl, rfl⟩
  | true =>
    rw [chooseAlgo_diffusing width diffusing]
    obtain ⟨_, reused⟩ | ⟨_, recreated⟩ | ⟨_, fallen_back⟩ := allocate_cases s.mode width s
    · rw [reused]; exact ⟨rfl, rfl⟩
    · rw [recreated]; exact ⟨rfl, rfl⟩
    · rw [fallen_back]; exact ⟨rfl, rfl⟩

/-- The latching step leaves ERR alone, so acceptance does as the allocation does. -/
theorem sameErr_acceptTile (fmt : Format) (bpp : BitVec 3) (s : State) : SameErr (acceptTile fmt bpp s) s :=
  sameErr_chooseAlgo (tileW s).toNat s

/-- Every command is guarded by the BUSY check, and its effect then raises the error of its argument check, or leaves
ERR alone. -/
theorem exec_eq (i : Instr) (s : State) : ∃ effect, exec i s = .next (unlessBusy effect s) ∧
    (∀ e, argError i s = some e → effect s = raiseCmdError e s) ∧ (argError i s = none → SameErr (effect s) s) := by
  cases i with
  | setMode m => exact ⟨_, rfl, nofun, fun _ => sameErr_setModeEffect m s⟩
  | setEnabled e => exact ⟨_, rfl, nofun, fun _ => sameErr_setModeEffect (enableTarget e s) s⟩
  | getMode | isEnabled | freeBuffers | sampleLuma fmt b0 b1 => exact ⟨_, rfl, nofun, fun _ => ⟨rfl, rfl⟩⟩
  | convertArea fmt bpp =>
    refine ⟨_, rfl, fun e failed => ?_, fun passed => ?_⟩
    · have arg : convertArgError fmt bpp s = some e := failed
      simp only [convertEffect, arg]
    · have arg : convertArgError fmt bpp s = none := passed
      simp only [convertEffect, arg]
      exact sameErr_acceptTile fmt bpp s

/-! ### The issue of a word (R96, R242) -/

/-- The first failing check of the model is the one error that the issue reports. -/
theorem issueCommand_rejected {w : Word} {s : State} {e : CmdError} (failed : commandError w s = some e) :
    issueCommand w s = .next (raiseCmdError e s) := by
  obtain ⟨i, decoded, issued⟩ | ⟨e', undecoded, issued⟩ := issueCommand_cases w s
  · obtain ⟨effect, run, raises, _⟩ := exec_eq i s
    rw [issued, run]
    obtain ⟨busy, guarded⟩ | ⟨ready, guarded⟩ := unlessBusy_cases effect s
    · obtain rfl : .busy = e := Option.some.inj ((commandError_busy busy).symm.trans failed)
      rw [guarded]
    · rw [guarded, raises e ((commandError_decoded ready decoded).symm.trans failed)]
  · rw [issued]
    obtain ⟨busy, guarded⟩ | ⟨ready, guarded⟩ := unlessBusy_cases (raiseCmdError e') s
    · obtain rfl : .busy = e := Option.some.inj ((commandError_busy busy).symm.trans failed)
      rw [guarded]
    · obtain rfl : e' = e := Option.some.inj ((commandError_undecoded ready undecoded).symm.trans failed)
      rw [guarded]

/-- A word that passes every check runs its command, which leaves ERR alone. -/
theorem issueCommand_accepted {w : Word} {s : State} (passed : commandError w s = none) :
    ∃ i t, decode w = .ok i ∧ issueCommand w s = exec i s ∧ exec i s = .next t ∧ SameErr t s := by
  have ready : s.busy = false := by
    cases busy : s.busy with
    | true => simp [commandError_busy busy] at passed
    | false => rfl
  obtain ⟨i, decoded, issued⟩ | ⟨e, undecoded, _⟩ := issueCommand_cases w s
  · obtain ⟨effect, run, _, keeps⟩ := exec_eq i s
    rw [unlessBusy_ready ready] at run
    exact ⟨i, effect s, decoded, issued, run, keeps ((commandError_decoded ready decoded).symm.trans passed)⟩
  · simp [commandError_undecoded ready undecoded] at passed

/-! ### The statements -/

/-- Settles O7. `firstError_eq` reads the code off the model's first failing check, and the issue of a word follows that
check. -/
theorem commandChecksRunInOrder : Obligations.CommandChecksRunInOrder := by
  intro w s
  rw [firstError_eq]
  refine ⟨fun c failed => ?_, fun passed => issueCommand_accepted (Option.map_eq_none_iff.mp passed)⟩
  obtain ⟨e, failed_check, rfl⟩ := Option.map_eq_some_iff.mp failed
  rw [issueCommand_rejected failed_check, raiseCmdError_eq_rejected]

/-- Settles O6. The write to CMD answers OKAY and issues the word; the response is none of what the checks read, so the
issue rejects the word as O7 says. -/
theorem commandErrorChangesOnlyErrAndCause : Obligations.CommandErrorChangesOnlyErrAndCause := by
  refine ⟨raiseCmdError_eq_rejected, fun w c s failed => ?_⟩
  have issued : agentStep (cmdWrite w) s = issueCommand w (replied .okay none s) :=
    busWrite_register (r := .cmd) (by decide) rfl
  have failed_replied : firstError w (replied .okay none s) = some c := failed
  obtain ⟨rejects, _⟩ := commandChecksRunInOrder w (replied .okay none s)
  rw [issued, rejects c failed_replied]

end Sys2Proof.Proofs
end

section
/-! PROOFS. Decoder and encoder (30_encoding.md R91 to R100): they are inverse to each other, every word is classified,
and the assembler's words are the encoder's. -/

namespace Sys2Proof.Proofs

open Sys2Proof Sys2Proof.Machine Sys2Proof.Claims

/-! ### Operand fields (R93) -/

@[simp] theorem ofBits_toBits_mode (m : DitherMode) : DitherMode.ofBits m.toBits = m := by
  cases m <;> rfl

@[simp] theorem toBits_ofBits_mode (b : BitVec 2) : (DitherMode.ofBits b).toBits = b := by
  revert b; decide

/-- A well-formed format is the one its tag names. -/
theorem ofBits_toBits_format {fmt : Format} (h : fmt.wellFormed = true) : Format.ofBits fmt.toBits = fmt := by
  cases fmt with
  | l8 | rgb332 | rgb565 => rfl
  | unsupported tag =>
    revert tag; decide

@[simp] theorem toBits_ofBits_format (b : BitVec 4) : (Format.ofBits b).toBits = b := by
  revert b; decide

theorem wellFormed_ofBits (b : BitVec 4) : (Format.ofBits b).wellFormed = true := by
  revert b; decide

/-! ### The fields of an encoded word (R91, R92) -/

section
variable (m : BitVec 2) (b1 b0 : Byte) (fmt : BitVec 4) (bpp : BitVec 3) (op : Byte)

theorem modeField_formatM : modeField (formatM m op) = .ofBits m := by
  simp only [modeField, formatM, BitVec.extractLsb'_append_eq_ite]
  simp

theorem enField_formatE (e : Bool) : enField (formatE e op) = e := by
  simp only [enField, formatE, BitVec.getLsbD_append]
  simp

theorem fmtField_formatS : fmtField (formatS b1 b0 fmt op) = .ofBits fmt := by
  simp only [fmtField, formatS, BitVec.extractLsb'_append_eq_ite]
  simp

theorem b0Field_formatS : b0Field (formatS b1 b0 fmt op) = b0 := by
  simp only [b0Field, formatS, BitVec.extractLsb'_append_eq_ite]
  simp

theorem b1Field_formatS : b1Field (formatS b1 b0 fmt op) = b1 := by
  simp only [b1Field, formatS, BitVec.extractLsb'_append_eq_ite]
  simp

theorem fmtField_formatC : fmtField (formatC bpp fmt op) = .ofBits fmt := by
  simp only [fmtField, formatC, BitVec.extractLsb'_append_eq_ite]
  simp

theorem bppField_formatC : bppField (formatC bpp fmt op) = bpp := by
  simp only [bppField, formatC, BitVec.extractLsb'_append_eq_ite]
  simp

end

/-! ### The opcode of an encoded word (R91, R94) -/

theorem encode_matches_row (i : Instr) : encode i &&& i.row.mask = i.row.pattern := by
  cases i with
  | setMode m => exact Laws.EncodeMatchesRow.setMode m
  | getMode => exact Laws.EncodeMatchesRow.getMode
  | setEnabled e => exact Laws.EncodeMatchesRow.setEnabled e
  | isEnabled => exact Laws.EncodeMatchesRow.isEnabled
  | freeBuffers => exact Laws.EncodeMatchesRow.freeBuffers
  | sampleLuma fmt b0 b1 => exact Laws.EncodeMatchesRow.sampleLuma fmt b0 b1
  | convertArea fmt bpp => exact Laws.EncodeMatchesRow.convertArea fmt bpp

/-- A word that matches a row has the row's opcode: every mask covers OP. -/
theorem opOf_of_matches_row {w : Word} {i : Instr} (h : w &&& i.row.mask = i.row.pattern) :
    opOf w = i.row.pattern.toNat := by
  have only_op : i.row.pattern &&& 0xFF#32 = i.row.pattern := by cases i <;> simp [Instr.row]
  have covers : i.row.mask &&& 0xFF#32 = 0xFF#32 := by cases i <;> simp [Instr.row]
  have low_byte : w &&& 0xFF#32 = i.row.pattern := by
    rw [← covers, ← BitVec.and_assoc, h, only_op]
  rw [← low_byte, BitVec.toNat_and]
  exact (Nat.and_two_pow_sub_one_eq_mod w.toNat 8).symm

theorem opOf_encode (i : Instr) : opOf (encode i) = i.row.pattern.toNat :=
  opOf_of_matches_row (encode_matches_row i)

/-- Every row's opcode is one of R94's seven. -/
theorem row_legal (i : Instr) : ¬(i.row.pattern.toNat = 0 ∨ 8 ≤ i.row.pattern.toNat) := by
  cases i <;> simp [Instr.row]

theorem namedInstr_encode {i : Instr} (h : i.wellFormed = true) : namedInstr (encode i) = i := by
  rw [namedInstr, opOf_encode]
  cases i with
  | getMode | isEnabled | freeBuffers => rfl
  | setMode m => simp [Instr.row, encode, modeField_formatM]
  | setEnabled e => simp [Instr.row, encode, enField_formatE]
  | sampleLuma fmt b0 b1 =>
    simp [Instr.row, encode, fmtField_formatS, b0Field_formatS, b1Field_formatS, ofBits_toBits_format h]
  | convertArea fmt bpp => simp [Instr.row, encode, fmtField_formatC, bppField_formatC, ofBits_toBits_format h]

/-- Settles O1. The encoded word has its row's opcode and matches its row, so the decoder accepts the command that the
opcode names, and every field gives its operand back. -/
theorem decodeOfEncodeGivesBackInstr : Obligations.DecodeOfEncodeGivesBackInstr := by
  intro i wf
  have legal : ¬(opOf (encode i) = 0 ∨ 8 ≤ opOf (encode i)) := by rw [opOf_encode]; exact row_legal i
  rw [decode_legal legal, namedInstr_encode wf]
  exact if_pos (encode_matches_row i)

/-! ### The word of a command (R92) -/

theorem wellFormed_namedInstr (w : Word) : (namedInstr w).wellFormed = true := by
  unfold namedInstr
  split <;> simp [Instr.wellFormed, fmtField, wellFormed_ofBits]

/-- A field that a clear mask covers is 0. -/
theorem field_eq_zero {w mask : Word} {start len : Nat} (clear : w &&& mask = 0#32)
    (covered : mask.extractLsb' start len = BitVec.allOnes len) : w.extractLsb' start len = 0#len := by
  have field := congrArg (BitVec.extractLsb' start len) clear
  rwa [BitVec.extractLsb'_and, covered, BitVec.and_allOnes, BitVec.extractLsb'_zero] at field

/-! Each format rebuilds a word from its fields: neighbouring fields join, and the reserved bits are the zeros. -/

section
variable {w : Word}

theorem join_fields (start low high : Nat) :
    w.extractLsb' (start + low) high ++ w.extractLsb' start low = w.extractLsb' start (high + low) :=
  BitVec.extractLsb'_append_extractLsb'_eq_extractLsb' rfl

theorem formatN_fields (clear : w &&& 0xFFFFFF00#32 = 0#32) : formatN (opField w) = w := by
  have zeros := field_eq_zero (start := 8) (len := 24) clear rfl
  rw [formatN, opField, ← zeros, join_fields 0 8 24]
  exact BitVec.extractLsb'_eq_self

theorem formatM_fields (clear : w &&& 0xFFFFFC00#32 = 0#32) : formatM (w.extractLsb' 8 2) (opField w) = w := by
  have zeros := field_eq_zero (start := 10) (len := 22) clear rfl
  rw [formatM, opField, ← zeros, join_fields 8 2 22, join_fields 0 8 24]
  exact BitVec.extractLsb'_eq_self

theorem ofBool_enField (w : Word) : BitVec.ofBool (enField w) = w.extractLsb' 8 1 := by
  refine BitVec.eq_of_getLsbD_eq fun k hk => ?_
  interval_cases k
  simp [enField]

theorem formatE_fields (clear : w &&& 0xFFFFFE00#32 = 0#32) : formatE (enField w) (opField w) = w := by
  have zeros := field_eq_zero (start := 9) (len := 23) clear rfl
  rw [formatE, opField, ofBool_enField, ← zeros, join_fields 8 1 23, join_fields 0 8 24]
  exact BitVec.extractLsb'_eq_self

theorem formatS_fields (clear : w &&& 0x0000F000#32 = 0#32) :
    formatS (b1Field w) (b0Field w) (w.extractLsb' 8 4) (opField w) = w := by
  have zeros := field_eq_zero (start := 12) (len := 4) clear rfl
  rw [formatS, opField, b0Field, b1Field, ← zeros, join_fields 16 8 8, join_fields 12 4 16, join_fields 8 4 20, join_fields 0 8 24]
  exact BitVec.extractLsb'_eq_self

theorem formatC_fields (clear : w &&& 0xFFFF8000#32 = 0#32) :
    formatC (bppField w) (w.extractLsb' 8 4) (opField w) = w := by
  have zeros := field_eq_zero (start := 15) (len := 17) clear rfl
  rw [formatC, opField, bppField, ← zeros, join_fields 12 3 17, join_fields 8 4 20, join_fields 0 8 24]
  exact BitVec.extractLsb'_eq_self

end

theorem opField_of_opOf {w : Word} {op : Byte} (h : opOf w = op.toNat) : op = opField w :=
  BitVec.eq_of_toNat_eq (h.symm.trans (toNat_opField w).symm)

/-- A word with a legal opcode and clear reserved bits is the encoding of the command it names. -/
theorem encode_namedInstr {w : Word} (legal : ¬(opOf w = 0 ∨ 8 ≤ opOf w))
    (clear : w &&& reservedBits (opOf w) = 0#32) : encode (namedInstr w) = w := by
  obtain ⟨low, high⟩ := opcode_range legal
  unfold namedInstr
  generalize hop : opOf w = op at low high clear
  interval_cases op <;> simp only [encode, modeField, fmtField, toBits_ofBits_mode, toBits_ofBits_format]
  · rw [opField_of_opOf (op := 1) hop]; exact formatM_fields clear
  · rw [opField_of_opOf (op := 2) hop]; exact formatN_fields clear
  · rw [opField_of_opOf (op := 3) hop]; exact formatE_fields clear
  · rw [opField_of_opOf (op := 4) hop]; exact formatN_fields clear
  · rw [opField_of_opOf (op := 5) hop]; exact formatN_fields clear
  · rw [opField_of_opOf (op := 6) hop]; exact formatS_fields clear
  · rw [opField_of_opOf (op := 7) hop]; exact formatC_fields clear

/-- Settles O2. A word that decodes has a legal opcode and clear reserved bits, or the decoder had rejected it; so it
decodes to the command it names, whose encoding it is. -/
theorem encodeOfDecodeGivesBackWord : Obligations.EncodeOfDecodeGivesBackWord := by
  intro w i decoded
  by_cases legal : opOf w = 0 ∨ 8 ≤ opOf w
  · rw [decode_illegal legal] at decoded
    cases decoded
  by_cases clear : w &&& reservedBits (opOf w) = 0#32
  · rw [decode_clear legal clear] at decoded
    cases decoded
    exact ⟨wellFormed_namedInstr w, encode_namedInstr legal clear⟩
  · rw [decode_reserved legal clear] at decoded
    cases decoded

/-- Settles O4, from the three outcomes of the decoder. -/
theorem decodeClassifiesEveryWord : Obligations.DecodeClassifiesEveryWord := by
  intro w
  have legal (low : 1 ≤ opOf w) (high : opOf w ≤ 7) : ¬(opOf w = 0 ∨ 8 ≤ opOf w) := by omega
  exact ⟨decode_illegal, fun low high set_bit => decode_reserved (legal low high) set_bit,
    fun low high clear => ⟨_, decode_clear (legal low high) clear⟩⟩

/-- Settles O3: both sides of every worked encoding compute to the same value. -/
theorem workedEncodingsAgree : Obligations.WorkedEncodingsAgree := by
  refine ⟨⟨rfl, rfl, rfl, rfl, rfl, rfl, rfl, rfl⟩, rfl⟩

/-! ### The assembler (R98) -/

theorem wellFormed_instrOf (c : AsmCommand) : (instrOf c).wellFormed = true := by
  cases c <;> simp [instrOf, Instr.wellFormed, wellFormed_ofBits]

/-- The encoder's word as a number: each operand shifted to its field (R98). -/
theorem toNat_formatM (m : BitVec 2) (op : Byte) : (formatM m op).toNat = m.toNat <<< 8 ||| op.toNat := by
  simp only [formatM, BitVec.toNat_append]
  simp

theorem toNat_formatS (b1 b0 : Byte) (fmt : BitVec 4) (op : Byte) :
    (formatS b1 b0 fmt op).toNat = b1.toNat <<< 24 ||| b0.toNat <<< 16 ||| fmt.toNat <<< 8 ||| op.toNat := by
  simp only [formatS, BitVec.toNat_append]
  simp [Nat.shiftLeft_or_distrib, ← Nat.shiftLeft_add]

theorem toNat_formatC (bpp : BitVec 3) (fmt : BitVec 4) (op : Byte) :
    (formatC bpp fmt op).toNat = bpp.toNat <<< 12 ||| fmt.toNat <<< 8 ||| op.toNat := by
  simp only [formatC, BitVec.toNat_append]
  simp [Nat.shiftLeft_or_distrib, ← Nat.shiftLeft_add]

theorem toNat_ofNat_of_lt {n k : Nat} (h : k < 2 ^ n) : (BitVec.ofNat n k).toNat = k := by
  rw [BitVec.toNat_ofNat, Nat.mod_eq_of_lt h]

theorem ofNat_toNat_word (w : Word) : BitVec.ofNat 32 w.toNat = w := by
  rw [BitVec.ofNat_toNat, BitVec.setWidth_eq]

/-- Where the operands fit, the assembler's word is the encoder's. -/
theorem assemble_of_fit {c : AsmCommand} (fit : operandsFit c) : assemble c = some (encode (instrOf c)) := by
  cases c with
  | getMode | isEnabled | freeBuffers => rfl
  | setMode m =>
    have m_lt : m < 4 := Nat.lt_succ_of_le fit
    have word : (formatM (BitVec.ofNat 2 m) 0x01).toNat = m <<< 8 ||| 0x01 := by
      rw [toNat_formatM, toNat_ofNat_of_lt m_lt]; rfl
    rw [assemble, if_pos m_lt, ← word, ofNat_toNat_word]
    simp [instrOf, encode]
  | setEnabled e =>
    have e_le : e ≤ 1 := fit
    interval_cases e <;> rfl
  | sampleLuma f b0 b1 =>
    obtain ⟨hf, h0, h1⟩ := fit
    have f_lt : f < 16 := Nat.lt_succ_of_le hf
    have b0_lt : b0 < 256 := Nat.lt_succ_of_le h0
    have b1_lt : b1 < 256 := Nat.lt_succ_of_le h1
    have word : (formatS (BitVec.ofNat 8 b1) (BitVec.ofNat 8 b0) (BitVec.ofNat 4 f) 0x06).toNat =
        b1 <<< 24 ||| b0 <<< 16 ||| f <<< 8 ||| 0x06 := by
      rw [toNat_formatS, toNat_ofNat_of_lt b1_lt, toNat_ofNat_of_lt b0_lt, toNat_ofNat_of_lt f_lt]; rfl
    rw [assemble, if_pos ⟨f_lt, b0_lt, b1_lt⟩, ← word, ofNat_toNat_word]
    simp [instrOf, encode]
  | convertArea f p =>
    obtain ⟨hf, hp⟩ := fit
    have f_lt : f < 16 := Nat.lt_succ_of_le hf
    have p_lt : p < 8 := Nat.lt_succ_of_le hp
    have word : (formatC (BitVec.ofNat 3 p) (BitVec.ofNat 4 f) 0x07).toNat = p <<< 12 ||| f <<< 8 ||| 0x07 := by
      rw [toNat_formatC, toNat_ofNat_of_lt p_lt, toNat_ofNat_of_lt f_lt]; rfl
    rw [assemble, if_pos ⟨f_lt, p_lt⟩, ← word, ofNat_toNat_word]
    simp [instrOf, encode]

theorem assemble_of_not_fit {c : AsmCommand} (misfit : ¬operandsFit c) : assemble c = none := by
  cases c with
  | getMode | isEnabled | freeBuffers => exact absurd trivial misfit
  | setMode | setEnabled | sampleLuma | convertArea =>
    simp only [operandsFit] at misfit
    simp only [assemble, ite_eq_right_iff, reduceCtorEq, imp_false]
    omega

/-- Settles O5. Operands that fit give the encoder's word of a well-formed command, which decodes to it (O1). -/
theorem assembledWordDecodesToItsCommand : Obligations.AssembledWordDecodesToItsCommand :=
  fun c => ⟨fun fit => ⟨_, assemble_of_fit fit, decodeOfEncodeGivesBackInstr _ (wellFormed_instrOf c)⟩,
    assemble_of_not_fit⟩

end Sys2Proof.Proofs
end

section
/-! PROOFS. The seven commands while no tile runs (40_color_sampler.md, 41_dither_engine.md R130 to R144): the effect of
each as one next state. -/

namespace Sys2Proof.Proofs

open Sys2Proof Sys2Proof.Machine Sys2Proof.Claims

/-! ### What a command does once its checks pass -/

/-- The effect of a command that no check turns away. -/
def commandEffect : Instr → State → State
  | .setMode m, s => setModeEffect m s
  | .getMode, s => setResult (s.mode.toBits.zeroExtend 32) s
  | .setEnabled e, s => setModeEffect (enableTarget e s) s
  | .isEnabled, s => setResult (if s.mode = .disabled then 0 else 1) s
  | .freeBuffers, s => discardBuffers s
  | .sampleLuma fmt b0 b1, s => setResult ((luma fmt b0 b1).zeroExtend 32) s
  | .convertArea fmt bpp, s => acceptTile fmt bpp s

/-- With no tile running and its arguments in order, a command has its effect (R140, R242). -/
theorem exec_ready {i : Instr} {s : State} (ready : s.busy = false) (passed : argError i s = none) :
    exec i s = .next (commandEffect i s) := by
  cases i with
  | convertArea fmt bpp =>
    have args : convertArgError fmt bpp s = none := passed
    simp only [exec, execConvertArea, unlessBusy_ready ready, convertEffect, args, commandEffect]
  | setMode m => exact congrArg _ (unlessBusy_ready ready)
  | setEnabled e => exact congrArg _ (unlessBusy_ready ready)
  | getMode | isEnabled | freeBuffers => exact congrArg _ (unlessBusy_ready ready)
  | sampleLuma fmt b0 b1 => exact congrArg _ (unlessBusy_ready ready)

/-! ### Mode control (R130 to R134) -/

theorem setModeEffect_same {m : DitherMode} {s : State} (same : m = s.mode) : setModeEffect m s = s := by
  simpa [same] using setModeEffect_cases m s

theorem setModeEffect_other {m : DitherMode} {s : State} (other : m ≠ s.mode) :
    setModeEffect m s =
      { s with accRows := 0, accWidth := 0, mode := m, lastMode := if m = .disabled then s.lastMode else m } := by
  simpa [other] using setModeEffect_cases m s

/-- Settles O8: a command that is ready has its effect, and that effect has R130's two branches. -/
theorem setModeCompletes : Obligations.SetModeCompletes := by
  intro m s ready
  rw [exec_ready ready rfl, commandEffect]
  by_cases same : m = s.mode
  · rw [if_pos same, setModeEffect_same same]
  · rw [if_neg same, setModeEffect_other same]
    simp only [ne_eq, ite_not]

/-- SET_ENABLED is SET_MODE of the target mode that R132 selects. -/
theorem exec_setEnabled {s : State} (ready : s.busy = false) (e : Bool) :
    exec (.setEnabled e) s = .next (setModeEffect (enableTarget e s) s) :=
  exec_ready ready rfl

/-- Settles O9: in each of R132's branches the target mode is known, and SET_MODE's two cases give the effect. -/
theorem setEnabledCompletes : Obligations.SetEnabledCompletes := by
  intro s ready
  have disable : enableTarget false s = .disabled := rfl
  have enable_enabled (enabled : s.mode ≠ .disabled) : enableTarget true s = s.mode := by
    simp [enableTarget, enabled]
  have enable_disabled (disabled : s.mode = .disabled) : enableTarget true s = s.lastMode := by
    simp [enableTarget, disabled]
  refine ⟨fun enabled => ?_, fun disabled last => ?_, fun disabled last => ?_, fun disabled => ?_, fun enabled => ?_⟩ <;>
    rw [exec_setEnabled ready]
  · rw [enable_enabled enabled, setModeEffect_same rfl]
  · rw [enable_disabled disabled, setModeEffect_other (disabled ▸ last), if_neg last]
  · rw [enable_disabled disabled, setModeEffect_same (last.trans disabled.symm)]
  · rw [disable, setModeEffect_same disabled.symm]
  · rw [disable, setModeEffect_other (Ne.symm enabled), if_pos rfl]

theorem zeroExtend_toBits (m : DitherMode) : m.toBits.zeroExtend 32 = BitVec.ofNat 32 (modeNumber m) := by
  cases m <;> rfl

/-- Settles O10: RESULT takes the mode's bits, which number it, or the flag. -/
theorem modeQueriesComplete : Obligations.ModeQueriesComplete := by
  intro s ready
  rw [exec_ready ready rfl, exec_ready ready rfl, commandEffect, commandEffect, zeroExtend_toBits]
  refine ⟨rfl, ?_⟩
  simp only [ne_eq, ite_not]
  rfl

/-- Settles O11: the effect is `discardBuffers`, which is R134's by definition. -/
theorem freeBuffersCompletes : Obligations.FreeBuffersCompletes :=
  fun _ ready => exec_ready ready rfl

/-! ### The luma (R111 to R118) -/

theorem expandChannel_eq (n c : Nat) : expandChannel n c = Claims.expand (2 ^ n - 1) c := rfl

theorem weigh_eq (r g b : Nat) : weigh r g b = (77 * r + 150 * g + 29 * b) / 256 := by
  rw [weigh, Nat.shiftRight_eq_div_pow]

/-- A channel never expands past 255: the largest value does exactly (R112). -/
theorem expand_le {max c : Nat} (pos : 0 < max) (le : c ≤ max) : Claims.expand max c ≤ 255 := by
  have numerator : c * 255 + max / 2 < max * 256 := by omega
  exact Nat.lt_succ_iff.mp ((Nat.div_lt_iff_lt_mul pos).mpr (by omega))

/-- The weights of R113 add up to 256. -/
theorem weighted_le {r g b : Nat} (hr : r ≤ 255) (hg : g ≤ 255) (hb : b ≤ 255) :
    (77 * r + 150 * g + 29 * b) / 256 ≤ 255 := by
  omega

theorem lumaOf_le (fmt : Format) (b0 b1 : Byte) : lumaOf fmt b0 b1 ≤ 255 := by
  have byte0 := b0.isLt
  have byte1 := b1.isLt
  cases fmt with
  | l8 | unsupported tag => exact Nat.lt_succ_iff.mp byte0
  | rgb332 =>
    exact weighted_le (expand_le (by decide) (by omega)) (expand_le (by decide) (by omega))
      (expand_le (by decide) (by omega))
  | rgb565 =>
    exact weighted_le (expand_le (by decide) (by omega)) (expand_le (by decide) (by omega))
      (expand_le (by decide) (by omega))

theorem lumaRgb332_eq (b0 b1 : Byte) : lumaRgb332 b0 = lumaOf .rgb332 b0 b1 := by
  have byte0 := b0.isLt
  have high : (b0.extractLsb' 5 3).toNat = b0.toNat / 32 := by
    simp only [BitVec.extractLsb'_toNat, Nat.shiftRight_eq_div_pow]; omega
  have mid : (b0.extractLsb' 2 3).toNat = b0.toNat / 4 % 8 := by
    simp only [BitVec.extractLsb'_toNat, Nat.shiftRight_eq_div_pow]
  have low : (b0.extractLsb' 0 2).toNat = b0.toNat % 4 := by
    simp [BitVec.extractLsb'_toNat]
  simp only [lumaRgb332, lumaOf, high, mid, low, weigh_eq, expandChannel_eq]
  rfl

theorem lumaRgb565_eq (b0 b1 : Byte) : lumaRgb565 b0 b1 = lumaOf .rgb565 b0 b1 := by
  have byte0 := b0.isLt
  have byte1 := b1.isLt
  have pixel : (b1 ++ b0).toNat = b1.toNat * 256 + b0.toNat := by
    rw [toNat_append_byte, Nat.mul_comm]
  have high : ((b1 ++ b0).extractLsb' 11 5).toNat = (b1.toNat * 256 + b0.toNat) / 2048 := by
    simp only [BitVec.extractLsb'_toNat, Nat.shiftRight_eq_div_pow, pixel]; omega
  have mid : ((b1 ++ b0).extractLsb' 5 6).toNat = (b1.toNat * 256 + b0.toNat) / 32 % 64 := by
    simp only [BitVec.extractLsb'_toNat, Nat.shiftRight_eq_div_pow, pixel]
  have low : ((b1 ++ b0).extractLsb' 0 5).toNat = (b1.toNat * 256 + b0.toNat) % 32 := by
    simp [BitVec.extractLsb'_toNat, -BitVec.toNat_append, pixel]
  simp only [lumaRgb565, lumaOf, high, mid, low, weigh_eq, expandChannel_eq]
  rfl

/-- The model's luma is R111 to R116's number. -/
theorem toNat_luma (fmt : Format) (b0 b1 : Byte) : (luma fmt b0 b1).toNat = lumaOf fmt b0 b1 := by
  have fits : lumaOf fmt b0 b1 < 2 ^ 8 := Nat.lt_succ_of_le (lumaOf_le fmt b0 b1)
  cases fmt with
  | l8 | unsupported tag => rfl
  | rgb332 => rw [luma, lumaRgb332_eq b0 b1, toNat_ofNat_of_lt fits]
  | rgb565 => rw [luma, lumaRgb565_eq, toNat_ofNat_of_lt fits]

/-- Settles O12: RESULT takes the luma widened to a word, and that is the number of R111 to R116. -/
theorem sampleLumaCompletes : Obligations.SampleLumaCompletes := by
  intro fmt b0 b1 s ready
  refine ⟨?_, lumaOf_le fmt b0 b1⟩
  rw [exec_ready ready rfl, commandEffect, ← toNat_luma, BitVec.ofNat_toNat]
  rfl

/-! ### Accumulator cells set to 0 (R144, R167) -/

theorem getD_zeroCells (n i : Nat) (cells : List Sys2Proof.Cell) :
    (zeroCells n cells).getD i 0 = if i < n then 0 else cells.getD i 0 := by
  by_cases past : cells.length ≤ i
  · have past_zeroed : (zeroCells n cells).length ≤ i := by rwa [zeroCells_length]
    rw [List.getD_eq_default _ _ past, List.getD_eq_default _ _ past_zeroed, ite_self]
  by_cases below : i < n
  · rw [if_pos below, zeroCells, List.getD_append _ _ _ _ (by simp; omega), List.getD_replicate]
    omega
  · rw [if_neg below, zeroCells, List.getD_append_right _ _ _ _ (by simp; omega)]
    simp only [List.length_replicate, List.getD_eq_getElem?_getD, List.getElem?_drop]
    congr 2
    omega

theorem cell_zeroRow {j k : Nat} (hj : j < 3) (hk : k < 3) (f : AccFile) (n i : Nat) :
    (f.zeroRow j n).cell k i = if k = j ∧ i < n then 0 else f.cell k i := by
  rw [AccFile.cell, AccFile.zeroRow, row_setRow hj hk]
  by_cases same_row : k = j
  · subst same_row
    rw [if_pos rfl, getD_zeroCells]
    by_cases below : i < n <;> simp [below, AccFile.cell]
  · simp [same_row, AccFile.cell]

theorem cell_zeroRows {rows j : Nat} (le : rows ≤ 3) (hj : j < 3) (f : AccFile) (n i : Nat) :
    (f.zeroRows rows n).cell j i = if j < rows ∧ i < n then 0 else f.cell j i := by
  induction rows with
  | zero => simp [AccFile.zeroRows]
  | succ rows ih =>
    rw [AccFile.zeroRows, cell_zeroRow le hj, ih (Nat.le_of_succ_le le)]
    by_cases last : j = rows
    · simp [last]
    · have same_rows : j < rows + 1 ↔ j < rows := by omega
      simp [last, same_rows]

/-- The mode's rows and padding are R125's. -/
theorem modeRows_eq (a : DitherMode) : modeRows a = rowsOf a := by cases a <;> rfl

theorem modePad_eq (a : DitherMode) : modePad a = padOf a := by cases a <;> rfl

theorem rowsOf_le (a : DitherMode) : rowsOf a ≤ 3 := by cases a <;> decide

/-- The cells that acceptance zeroes: those of the tile, where the algorithm diffuses error (R144). -/
theorem cell_clearForTile {j : Nat} (hj : j < 3) (a : DitherMode) (w : Nat) (f : AccFile) (i : Nat) :
    (clearForTile a w f).cell j i = if j < rowsOf a ∧ i < w + padOf a then 0 else f.cell j i := by
  cases a with
  | disabled | ordered => simp [clearForTile, diffuses, rowsOf]
  | ed2 => exact cell_zeroRows (by decide) hj f _ i
  | ed3 => exact cell_zeroRows (by decide) hj f _ i

/-- Settles O39: RowStart zeroes one row, which is R167's. -/
theorem rowStartZeroesFarthestRow : Obligations.RowStartZeroesFarthestRow := by
  intro a w r f diffusing _ j i hj
  have rows_pos : 0 < rowsOf a := by rcases diffusing with rfl | rfl <;> decide
  have farthest : (r + rowsOf a - 1) % rowsOf a < 3 := (Nat.mod_lt _ rows_pos).trans_le (rowsOf_le a)
  rw [rowStart, modeRows_eq, modePad_eq, cell_zeroRow farthest hj]

/-! ### CONVERT_AREA (R140 to R144) -/

theorem argError_convertArea_none {fmt : Format} {bpp : BitVec 3} {s : State}
    (passed : argCode (decide (fmt = .rgb565)) bpp.toNat s = none) : argError (.convertArea fmt bpp) s = none := by
  rw [← codeOf_convertArgError] at passed
  exact Option.map_eq_none_iff.mp passed

theorem toNat_tileW (s : State) : (tileW s).toNat = argW s := toNat_low_half _

/-- The state that acceptance latches from, in the terms of R140, R142 and R143: the algorithm chosen, and ACC_ALLOC with
it. -/
def allocated (s : State) : State :=
  { (chooseAlgo (argW s) s).2 with algo := (chooseAlgo (argW s) s).1 }

theorem allocated_stateless {s : State} (h : s.mode = .disabled ∨ s.mode = .ordered) :
    allocated s = { s with algo := s.mode } := by
  have stateless : diffuses s.mode = false := by rcases h with h | h <;> rw [h] <;> rfl
  rw [allocated, chooseAlgo_stateless _ stateless]

theorem allocated_diffusing {s : State} (h : s.mode = .ed2 ∨ s.mode = .ed3) :
    allocated s = { (allocate s.mode (argW s) s).2 with algo := (allocate s.mode (argW s) s).1 } := by
  have diffusing : diffuses s.mode = true := by rcases h with h | h <;> rw [h] <;> rfl
  rw [allocated, chooseAlgo_diffusing _ diffusing]

section
variable {s : State} {need : Nat} (h : s.mode = .ed2 ∨ s.mode = .ed3) (hneed : need = argW s + padOf s.mode)
include h hneed

theorem allocated_reused (fits : s.accRows.toNat = rowsOf s.mode ∧ need ≤ s.accWidth.toNat) :
    allocated s = { s with algo := s.mode } := by
  subst hneed
  have reuse : canReuse s.mode (argW s) s = true := by rwa [canReuse_iff, modeRows_eq, modePad_eq]
  rw [allocated_diffusing h, allocate, if_pos reuse]

theorem allocated_recreated (misfit : ¬(s.accRows.toNat = rowsOf s.mode ∧ need ≤ s.accWidth.toNat))
    (room : need ≤ s.cfg.accRowCells) :
    allocated s =
      { s with algo := s.mode, accRows := BitVec.ofNat 2 (rowsOf s.mode), accWidth := BitVec.ofNat 16 need } := by
  subst hneed
  have no_reuse : ¬canReuse s.mode (argW s) s = true := by rwa [canReuse_iff, modeRows_eq, modePad_eq]
  rw [← modePad_eq] at room
  rw [allocated_diffusing h, allocate, if_neg no_reuse, if_pos room, modeRows_eq, modePad_eq]

theorem allocated_fallen_back (misfit : ¬(s.accRows.toNat = rowsOf s.mode ∧ need ≤ s.accWidth.toNat))
    (no_room : s.cfg.accRowCells < need) :
    allocated s =
      { s with
        algo := .disabled
        accRows := 0
        accWidth := 0
        fallbackCount := s.fallbackCount + 1
        intStatus := s.intStatus ||| 0b10000 } := by
  subst hneed
  have no_reuse : ¬canReuse s.mode (argW s) s = true := by rwa [canReuse_iff, modeRows_eq, modePad_eq]
  rw [← modePad_eq] at no_room
  rw [allocated_diffusing h, allocate, if_neg no_reuse, if_neg (Nat.not_le.mpr no_room)]
  rfl

end

/-- Allocation leaves the registers, the accumulators and everything else that acceptance latches (R142, R143). -/
theorem chooseAlgo_frame (w : Nat) (s : State) : ∃ rows width count causes,
    (chooseAlgo w s).2 =
      { s with accRows := rows, accWidth := width, fallbackCount := count, intStatus := causes } := by
  cases diffusing : diffuses s.mode with
  | false => exact ⟨_, _, _, _, by rw [chooseAlgo_stateless w diffusing]⟩
  | true =>
    rw [chooseAlgo_diffusing w diffusing]
    obtain ⟨_, reused⟩ | ⟨_, recreated⟩ | ⟨_, fallen_back⟩ := allocate_cases s.mode w s
    · exact ⟨_, _, _, _, by rw [reused]⟩
    · exact ⟨_, _, _, _, by rw [recreated]⟩
    · exact ⟨_, _, _, _, by rw [fallen_back]⟩

/-- Acceptance: the operands latched over the allocation, with the tile's cells zeroed (R140). -/
theorem acceptTile_eq (fmt : Format) (bpp : BitVec 3) (s : State) :
    acceptTile fmt bpp s =
      { allocated s with
        lx := BitVec.ofNat 16 (argX s)
        ly := BitVec.ofNat 16 (argY s)
        lw := BitVec.ofNat 16 (argW s)
        lh := BitVec.ofNat 16 (argH s)
        lsrc := s.srcAddr
        lfmt := fmt
        lbpp := bpp
        curR := 0
        curC := 0
        acc := clearForTile (allocated s).algo (argW s) s.acc
        srcChanged := []
        busy := true } := by
  have halves (v : BitVec 16) (n : Nat) (h : v.toNat = n) : v = BitVec.ofNat 16 n := by
    rw [← h, BitVec.ofNat_toNat, BitVec.setWidth_eq]
  have x : tileX s = BitVec.ofNat 16 (argX s) := halves _ _ (toNat_low_half _)
  have y : tileY s = BitVec.ofNat 16 (argY s) := halves _ _ (toNat_high_half _)
  have w : tileW s = BitVec.ofNat 16 (argW s) := halves _ _ (toNat_low_half _)
  have h : tileH s = BitVec.ofNat 16 (argH s) := halves _ _ (toNat_high_half _)
  obtain ⟨rows, width, count, causes, frame⟩ := chooseAlgo_frame (argW s) s
  simp only [acceptTile, allocated, toNat_tileW, frame]
  rw [← x, ← y, ← w, ← h, ← toNat_tileW]
  rfl

/-- Settles O13. `u` is the state after allocation, by R142's and R143's cases, and the zeroed cells are those of
`cell_clearForTile`. -/
theorem convertAreaAcceptsTile : Obligations.ConvertAreaAcceptsTile := by
  intro fmt bpp s ready passed need hneed
  refine ⟨clearForTile (allocated s).algo (argW s) s.acc, allocated s,
    ⟨allocated_stateless, fun h => ⟨allocated_reused h hneed, allocated_recreated h hneed,
      allocated_fallen_back h hneed⟩⟩, ?_, fun j i hj => cell_clearForTile hj _ _ _ _, clearForTile_sameShape _ _ _⟩
  rw [exec_ready ready (argError_convertArea_none passed), commandEffect, acceptTile_eq]

end Sys2Proof.Proofs
end

section
/-! PROOFS. The step, reset and the register bus (10_state.md R20 to R39, 20_memory.md R61 to R75, 70_reset_and_hazards.md
R265), and the two byte memories (20_memory.md R67, R70). -/

namespace Sys2Proof.Proofs

open Sys2Proof Sys2Proof.Machine Sys2Proof.Claims

/-! ### Transfers that name a register (R20) -/

section
variable {off : Offset} {d : Word} {s : State} {r : Reg}

theorem aligned_of_register (named : regOffset r = off.toNat) : off.toNat % 4 = 0 := by
  rw [← named]
  cases r <;> rfl

theorem busRead_register (named : regOffset r = off.toNat) :
    busRead off 32 s = replied .okay (some (regRead s r)) s := by
  simp [busRead, transferLegal_of_aligned (aligned_of_register named), ← named, locate_regOffset, setReply, replied]

/-- A write to CMD answers OKAY and issues the word (R24, R96). -/
theorem agentStep_cmdWrite (w : Word) (s : State) :
    agentStep (cmdWrite w) s = issueCommand w (replied .okay none s) :=
  busWrite_register (r := .cmd) (by decide) rfl

theorem writeReg_writable {t : State} (writable : regWrite r d s = some t) :
    writeReg r d s = .next (replied .okay none t) := by
  have not_cmd : r ≠ .cmd := by rintro rfl; cases writable
  rw [writeReg, if_neg not_cmd, writable]
  rfl

/-- A write to any other writable register stores what R26 to R34 say and answers OKAY. -/
theorem agentStep_registerWrite {t : State} (named : regOffset r = off.toNat) (writable : regWrite r d s = some t) :
    agentStep (.busWrite off 32 d) s = .next (replied .okay none t) :=
  (busWrite_register (aligned_of_register named) named).trans (writeReg_writable writable)

end

/-! ### The step (R4, R24, R96) -/

theorem step_released {s : State} {e : Event} {rest : List Event} (released : s.resetHeld = false)
    (scheduled : s.schedule = e :: rest) : step s = agentStep e { s with schedule := rest } :=
  (step_scheduled scheduled).trans (handle_released _ released)

theorem step_held {s : State} {e : Event} {rest : List Event} (held : s.resetHeld = true)
    (scheduled : s.schedule = e :: rest) : step s = .next (heldStep e { s with schedule := rest }) :=
  (step_scheduled scheduled).trans (handle_held _ held)

theorem step_command {s : State} {w : Word} {rest : List Event} (released : s.resetHeld = false)
    (scheduled : s.schedule = cmdWrite w :: rest) :
    step s = issueCommand w (replied .okay none { s with schedule := rest }) := by
  rw [step_released released scheduled, agentStep_cmdWrite]

theorem step_hostCommand {s : State} {w : Word} {rest : List Event} {prog : List HostOp} (released : s.resetHeld = false)
    (scheduled : s.schedule = .hostStep :: rest) (writes : s.program = .write 0x010 w :: prog) :
    step s = issueCommand w (replied .okay none { s with schedule := rest, program := prog }) := by
  have transfer : hostStep { s with schedule := rest } =
      agentStep (cmdWrite w) (setProgram prog { s with schedule := rest }) := by
    simp only [hostStep, writes]
    rfl
  rw [step_released released scheduled, agentStep, transfer, agentStep_cmdWrite]
  rfl

theorem issueCommand_decoded {w : Word} {i : Instr} (decoded : decode w = .ok i) (s : State) :
    issueCommand w s = exec i s := by
  simp only [issueCommand, decoded]

/-- Settles O14: a scheduled CMD write, and the program's next transfer, both come down to the issue of the word. -/
theorem stepRunsDecodedCommand : Obligations.StepRunsDecodedCommand := by
  intro s w rest released
  refine ⟨fun scheduled => ?_, fun prog scheduled writes => ?_⟩
  · have issued := step_command released scheduled
    exact ⟨issued, fun i decoded => issued.trans (issueCommand_decoded decoded _)⟩
  · have issued := step_hostCommand released scheduled writes
    exact ⟨issued, fun i decoded => issued.trans (issueCommand_decoded decoded _)⟩

/-- Settles O15: a held step is `heldStep` of the scheduled event, which moves nothing of the block. -/
theorem heldResetStopsTheBlock : Obligations.HeldResetStopsTheBlock := by
  intro s e rest scheduled held
  have steps := step_held held scheduled
  refine ⟨?_, ?_, ?_, ?_, ?_⟩
  · rintro off size rfl; exact steps
  · rintro off size d rfl; exact steps
  · rintro rfl program_left
    have not_empty : ¬s.program.isEmpty = true := by simpa using program_left
    rw [steps, heldStep, if_neg not_empty]
    rfl
  · rintro (rfl | rfl | rfl | ⟨ms, rfl⟩ | ⟨a, rfl⟩) <;> exact steps
  · rintro rfl; exact steps

/-- Settles O17: the raster is empty at reset, and each register's word computes. -/
theorem resetRegistersRead : Obligations.ResetRegistersRead := by
  refine ⟨rfl, rfl, rfl, rfl, fun r other => ?_, rasterRead_of_raster_nil rfl⟩
  cases r with
  | id | geometry | caps | mode => exact absurd (by decide) other
  | _ => rfl

/-- Settles O18. -/
theorem busReadsChangeNothing : Obligations.BusReadsChangeNothing := by
  intro off size s released
  obtain ⟨r, answered⟩ := busRead_state off size s
  exact ⟨r, by rw [handle_released _ released, agentStep, answered]⟩

/-! ### The words of the registers as numbers (R21 to R39) -/

theorem toNat_append_eq {m n : Nat} (high : BitVec m) (low : BitVec n) :
    (high ++ low).toNat = high.toNat * 2 ^ n + low.toNat := by
  rw [BitVec.toNat_append, ← Nat.shiftLeft_add_eq_or_of_lt low.isLt, Nat.shiftLeft_eq]

theorem reads_register {r : Reg} {off : Offset} {s : State} {v : Nat} (named : regOffset r = off.toNat)
    (word : (regRead s r).toNat = v) : Reads s off v := by
  subst word
  refine ⟨(regRead s r).isLt, ?_⟩
  rw [ofNat_toNat_word, agentStep, busRead_register named]

theorem toNat_modeBits (m : DitherMode) : m.toBits.toNat = modeNumber m := by cases m <;> rfl

theorem toNat_phaseCode (p : SchedPhase) : (phaseCode p).toNat = phaseNumber p := by cases p <;> rfl

theorem toNat_ofBool (b : Bool) : (BitVec.ofBool b).toNat = bit b := by cases b <;> rfl

theorem toNat_modeWord (s : State) :
    (modeWord s).toNat =
      modeNumber s.mode + 4 * modeNumber s.lastMode + 16 * (if s.mode = .disabled then 0 else 1) := by
  have flag : (BitVec.ofBool (enabled s)).toNat = if s.mode = .disabled then 0 else 1 := by
    by_cases h : s.mode = .disabled <;> simp [enabled, h]
  simp only [modeWord, toNat_append_eq, flag, toNat_modeBits, BitVec.toNat_ofNat]
  omega

theorem toNat_statusWord (s : State) :
    (statusWord s).toNat =
      bit s.busy + 2 * (if s.schedState = .idle then 0 else 1) + 4 * phaseNumber s.schedPhase +
        32 * bit s.dirty + 64 * (if s.errCode = 0 then 0 else 1) +
        128 * (if s.schedPhase = .draw then s.plane.toNat else 0) := by
  have pending : (BitVec.ofBool (errPending s)).toNat = if s.errCode = 0 then 0 else 1 := by
    by_cases h : s.errCode = 0#4 <;> simp [errPending, h]
  have state : (schedStateBit s.schedState).toNat = if s.schedState = .idle then 0 else 1 := by
    cases s.schedState <;> rfl
  have plane : (planeBit s).toNat = if s.schedPhase = .draw then s.plane.toNat else 0 :=
    apply_ite BitVec.toNat _ _ _
  simp only [statusWord, toNat_append_eq, pending, state, plane, toNat_phaseCode, toNat_ofBool, BitVec.toNat_ofNat]
  omega

theorem toNat_errWord (s : State) : (errWord s).toNat = s.errCode.toNat + 16 * bit s.errOverflow := by
  simp only [errWord, toNat_append_eq, toNat_ofBool, BitVec.toNat_ofNat]
  omega

theorem toNat_accAllocWord (s : State) : (accAllocWord s).toNat = s.accWidth.toNat + 65536 * s.accRows.toNat := by
  simp only [accAllocWord, toNat_append_eq, BitVec.toNat_ofNat]
  omega

theorem toNat_lastPanelFailWord (s : State) :
    (lastPanelFailWord s).toNat = s.lastFailOp.toNat + 8 * s.lastFailPlane.toNat := by
  simp only [lastPanelFailWord, toNat_append_eq, BitVec.toNat_ofNat]
  omega

theorem toNat_geometryWord {s : State} (legal : s.cfg.Legal) :
    (geometryWord s).toNat = s.cfg.screenW + 65536 * s.cfg.screenH := by
  have width := legal.screenW_range
  have height := legal.screenH_range
  simp only [geometryWord, toNat_append_eq, BitVec.toNat_ofNat]
  omega

theorem toNat_capsWord {s : State} (legal : s.cfg.Legal) :
    (capsWord s).toNat = s.cfg.accRowCells + 65536 * s.cfg.panelPlanes := by
  have cells := legal.accRowCells_range
  have planes := legal.panelPlanes_range
  simp only [capsWord, toNat_append_eq, BitVec.toNat_ofNat]
  omega

/-- A narrow register reads as the same number. -/
theorem toNat_widened {n : Nat} (h : n ≤ 32) (v : BitVec n) : (v.zeroExtend 32).toNat = v.toNat := by
  rw [BitVec.toNat_setWidth]
  exact Nat.mod_eq_of_lt (v.isLt.trans_le (Nat.pow_le_pow_right (by decide) h))

/-- Settles O22: each offset names its register, and the register's word is the sum of its fields. -/
theorem registersReadTheirFields : Obligations.RegistersReadTheirFields := by
  intro s legal
  exact ⟨reads_register (r := .id) rfl rfl, reads_register (r := .geometry) rfl (toNat_geometryWord legal),
    reads_register (r := .caps) rfl (toNat_capsWord legal), reads_register (r := .cmd) rfl rfl,
    reads_register (r := .result) rfl rfl, reads_register (r := .tileOrigin) rfl rfl,
    reads_register (r := .tileSize) rfl rfl, reads_register (r := .srcAddr) rfl rfl,
    reads_register (r := .mode) rfl (toNat_modeWord s), reads_register (r := .status) rfl (toNat_statusWord s),
    reads_register (r := .err) rfl (toNat_errWord s),
    reads_register (r := .intStatus) rfl (toNat_widened (by decide) s.intStatus),
    reads_register (r := .intEnable) rfl (toNat_widened (by decide) s.intEnable),
    reads_register (r := .threshold) rfl (toNat_widened (by decide) s.threshold),
    reads_register (r := .partialCount) rfl (toNat_widened (by decide) s.partialCount),
    reads_register (r := .accAlloc) rfl (toNat_accAllocWord s), reads_register (r := .fallbackCount) rfl rfl,
    reads_register (r := .panelFailCount) rfl rfl,
    reads_register (r := .lastPanelFail) rfl (toNat_lastPanelFailWord s)⟩

/-! ### Register writes (R26 to R34) -/

theorem low_half_eq_ofNat (v : Word) : v.extractLsb' 0 16 = BitVec.ofNat 16 (v.toNat % 65536) := by
  rw [← toNat_low_half, BitVec.ofNat_toNat, BitVec.setWidth_eq]

/-- Settles O24: every offset names a writable register, whose write is R26's to R34's. -/
theorem registerWritesTakeEffect : Obligations.RegisterWritesTakeEffect := by
  intro v s
  refine ⟨agentStep_registerWrite (r := .tileOrigin) rfl rfl, agentStep_registerWrite (r := .tileSize) rfl rfl,
    agentStep_registerWrite (r := .srcAddr) rfl rfl, agentStep_registerWrite (r := .err) rfl rfl,
    ⟨_, agentStep_registerWrite (r := .intStatus) rfl rfl, fun b hb => ?_⟩,
    ⟨_, agentStep_registerWrite (r := .intEnable) rfl rfl, fun b hb => ?_⟩, ?_⟩
  · simp [hb]
  · simp [hb]
  · rw [← low_half_eq_ofNat]
    exact agentStep_registerWrite (r := .threshold) rfl rfl

/-! ### The byte memories (R67, R70) -/

/-- Settles O26. -/
theorem rasterReadsBackWrites : Obligations.RasterReadsBackWrites := by
  intro s i v canonical j
  split_ifs with same
  · rw [same, rasterRead_rasterWrite_same canonical]
  · exact rasterRead_rasterWrite_other canonical (Ne.symm same)

theorem sourceByte_srcWrite {s : State} (canonical : Memory.wf sourceUnlisted (2 ^ 32) s.src) (a : Word) (b : Byte)
    (k : Nat) : sourceByte (srcWrite a b s) k = if k = a.toNat then b else sourceByte s k := by
  split_ifs with same
  · rw [same, sourceByte, srcWrite, Memory.read_write_same _ _ _ _ _ canonical]
    rfl
  · rw [sourceByte, srcWrite, Memory.read_write_other _ _ _ _ _ _ canonical (Ne.symm same)]
    rfl

/-- Settles O28: with no tile running the write marks no byte as changed, so every read is of the byte left. -/
theorem sourceReadsWhatHostLeft : Obligations.SourceReadsWhatHostLeft := by
  intro s a b canonical ready unchanged k
  have marks_none : (srcWrite a b s).srcChanged = [] := by simp [srcWrite, ready, unchanged]
  rw [srcRead_unchanged (by simp [marks_none]), srcRead_unchanged (by simp [unchanged]), sourceByte_srcWrite canonical]

end Sys2Proof.Proofs
end

section
/-! PROOFS. The refresh cycle (43_refresh_scheduler.md R202 to R217): the poll tick, the draw pass, completion and failure,
one whole clean cycle, the sequence of decisions, and what the scheduler may write. -/

namespace Sys2Proof.Proofs

open Sys2Proof Sys2Proof.Machine

/-! ### The poll tick (R202 to R204) -/

theorem tick_starts {s : State} (idle : s.schedState = .idle) (dirty : s.dirty = true) :
    tick s = startCycle { s with pollElapsed := 0 } := by
  simpa [idle, dirty] using tick_cases s

theorem tick_other {s : State} (h : ¬(s.schedState = .idle ∧ s.dirty = true)) : tick s = { s with pollElapsed := 0 } :=
  (tick_cases s).elim (fun ⟨idle, dirty, _⟩ => absurd ⟨idle, dirty⟩ h) And.right

/-- Settles O40: the tick starts a cycle, whose fields are R203's by definition. -/
theorem dirtyTickStartsCycle : Obligations.DirtyTickStartsCycle :=
  fun _ idle dirty => congrArg _ (tick_starts idle dirty)

/-- Settles O41: either condition rules out that a cycle starts. -/
theorem otherTickChangesNothing : Obligations.OtherTickChangesNothing := by
  intro s h
  refine congrArg _ (tick_other ?_)
  rintro ⟨idle, dirty⟩
  rcases h with running | clean
  · rw [idle] at running; cases running
  · rw [dirty] at clean; cases clean

/-! ### The draw pass (R208) -/

theorem readDrawByte_of_lt {s : State} (left : s.drawIndex < s.cfg.rasterBytes) :
    readDrawByte s =
      { s with drawBuf := s.drawBuf ++ [rasterRead s s.drawIndex], drawIndex := s.drawIndex + 1 } := by
  rw [readDrawByte, if_pos left]

/-- A byte that is not the last is read and nothing is issued. -/
theorem schedStep_reads {s : State} (drawing_now : drawing s = true) (left : s.drawIndex + 1 < s.cfg.rasterBytes) :
    schedStep s =
      { s with drawIndex := s.drawIndex + 1, drawBuf := s.drawBuf ++ [rasterRead s s.drawIndex] } := by
  rw [schedStep, if_pos drawing_now, readDrawByte_of_lt (Nat.lt_of_succ_lt left)]
  exact if_neg (Nat.not_le.mpr left)

/-- The last byte is read and DRAW is issued with the whole buffer. -/
theorem schedStep_issues {s : State} (drawing_now : drawing s = true) (last : s.drawIndex + 1 = s.cfg.rasterBytes) :
    schedStep s =
      issueRequest (.draw s.plane (s.drawBuf ++ [rasterRead s s.drawIndex]))
        { s with drawIndex := s.drawIndex + 1, drawBuf := s.drawBuf ++ [rasterRead s s.drawIndex] } := by
  rw [schedStep, if_pos drawing_now, readDrawByte_of_lt (last ▸ Nat.lt_succ_self _)]
  exact if_pos last.ge

/-- Settles O44. -/
theorem drawStepReadsNextByte : Obligations.DrawStepReadsNextByte := by
  intro s draw_phase free
  have drawing_now : drawing s = true := (drawing_iff s).mpr ⟨draw_phase, free⟩
  exact ⟨fun left => congrArg _ (schedStep_reads drawing_now left),
    fun last => congrArg _ (schedStep_issues drawing_now last)⟩

/-! ### Completion and failure (R211 to R213) -/

/-- Settles O47: the answer selects `completeCycle`, whose fields are R211's and R212's by definition. -/
theorem powerOffOkCompletesCycle : Obligations.PowerOffOkCompletesCycle :=
  fun _ outstanding => agentStep_panelAnswer_ok outstanding rfl

theorem panelAnswer_fail {s : State} {op : PanelOp} (outstanding : s.outstanding = some op) :
    panelAnswer .fail s = abortCycle op { s with outstanding := none } := by
  simpa [outstanding] using panelAnswer_cases .fail s

/-- Settles O48: a failed answer aborts the cycle, and the code recorded is the request's (R39). -/
theorem panelFailAbortsCycle : Obligations.PanelFailAbortsCycle := by
  intro s op outstanding
  rw [agentStep, panelAnswer_fail outstanding]
  cases op <;> rfl

/-! ### A whole cycle (R203 to R212) -/

section
variable {s t u : State} {e : Event} {es es' : List Event}

theorem runEvents_cons (released : s.resetHeld = false) (stepped : agentStep e s = .next t) :
    runEvents (e :: es) s = runEvents es t := by
  simp only [runEvents, handle_released _ released, stepped]

theorem runEvents_append (first : runEvents es s = .next t) : runEvents (es ++ es') s = runEvents es' t := by
  induction es generalizing s with
  | nil => cases first; rfl
  | cons e es ih =>
    rw [runEvents] at first
    rw [List.cons_append, runEvents]
    cases stepped : handle e s with
    | next u => rw [stepped] at first; exact ih first
    | fault r => rw [stepped] at first; cases first
    | refused r => rw [stepped] at first; cases first

end

/-- A draw pass with `n` bytes read: the buffer holds the first `n` raster bytes (R46, R208). -/
def passAt (s : State) (n : Nat) : State :=
  { s with drawIndex := n, drawBuf := (List.range n).map (rasterRead s) }

/-- The buffer of a pass grows by the byte at its index. -/
theorem passAt_succ (s : State) (n : Nat) :
    passAt s (n + 1) =
      { passAt s n with drawIndex := n + 1, drawBuf := (passAt s n).drawBuf ++ [rasterRead (passAt s n) n] } := by
  simp only [passAt, List.range_succ, List.map_append, List.map_cons, List.map_nil]
  rfl

theorem drawing_passAt {s : State} (draw_phase : s.schedPhase = .draw) (free : s.outstanding = none) (n : Nat) :
    drawing (passAt s n) = true :=
  (drawing_iff _).mpr ⟨draw_phase, free⟩

section
variable {s : State} (released : s.resetHeld = false) (draw_phase : s.schedPhase = .draw) (free : s.outstanding = none)
include released draw_phase free

/-- The steps before the last byte only read. -/
theorem runEvents_reads {n : Nat} (before_last : n < s.cfg.rasterBytes) :
    runEvents (List.replicate n .schedStep) (passAt s 0) = .next (passAt s n) := by
  induction n with
  | zero => rfl
  | succ n ih =>
    have reads : agentStep .schedStep (passAt s n) = .next (passAt s (n + 1)) := by
      rw [passAt_succ]
      exact congrArg _ (schedStep_reads (drawing_passAt draw_phase free n) before_last)
    rw [List.replicate_succ', runEvents_append (ih (Nat.lt_of_succ_lt before_last)),
      runEvents_cons (show (passAt s n).resetHeld = false from released) reads]
    rfl

/-- A whole pass reads every raster byte and ends with DRAW issued (R208). -/
theorem runEvents_drawPass (pos : 0 < s.cfg.rasterBytes) :
    runEvents (List.replicate s.cfg.rasterBytes .schedStep) (passAt s 0) =
      .next (issueRequest (.draw s.plane ((List.range s.cfg.rasterBytes).map (rasterRead s)))
        (passAt s s.cfg.rasterBytes)) := by
  obtain ⟨n, size⟩ : ∃ n, s.cfg.rasterBytes = n + 1 := Nat.exists_eq_succ_of_ne_zero pos.ne'
  have issues : agentStep .schedStep (passAt s n) =
      .next (issueRequest (.draw s.plane (passAt s (n + 1)).drawBuf) (passAt s (n + 1))) := by
    rw [passAt_succ]
    exact congrArg _ (schedStep_issues (drawing_passAt draw_phase free n) size.symm)
  have before_last : n < s.cfg.rasterBytes := size ▸ Nat.lt_succ_self n
  rw [size, List.replicate_succ', runEvents_append (runEvents_reads released draw_phase free before_last),
    runEvents_cons (show (passAt s n).resetHeld = false from released) issues]
  rfl

end

theorem rasterBytes_pos {p : Params} (legal : p.Legal) : 0 < p.rasterBytes := by
  have width := legal.screenW_range
  have height := legal.screenH_range
  have bytes : 0 < p.bytesPerRow := by unfold Params.bytesPerRow; omega
  exact Nat.mul_pos bytes (by omega)

theorem agentStep_ok {s : State} {op : PanelOp} (outstanding : s.outstanding = some op) :
    agentStep (.panelAnswer .ok) s = .next (onPanelOk op { s with outstanding := none }) :=
  agentStep_panelAnswer_ok outstanding rfl

/-- The state that starts the first draw pass: a tick, and OK to POWER_ON and to SELECT_LUT (R203 to R206). -/
def passStart (s : State) : State :=
  { s with
    pollElapsed := 0
    schedState := .refreshInProgress
    schedPhase := .draw
    plane := 0
    drawIndex := 0
    drawBuf := []
    outstanding := none
    lut := decidedLut s
    partialCount := decidedCount s
    panelLog := s.panelLog ++ [.powerOn] ++ [.selectLut (decidedLut s)] }

/-- The state in which that pass has issued DRAW (R208). -/
def passEnd (s : State) : State :=
  issueRequest (.draw 0 ((List.range s.cfg.rasterBytes).map (rasterRead s))) (passAt (passStart s) s.cfg.rasterBytes)

/-- The state in which REFRESH is outstanding: the only plane's DRAW is answered OK (R209). -/
def refreshStart (s : State) : State :=
  issueRequest .refresh { s with outstanding := none, plane := 0, schedPhase := .refresh }

/-- The state after OK to REFRESH and to POWER_OFF, from the one in which REFRESH is outstanding (R210 to R212). -/
def cycleEnd (s : State) : State :=
  completeCycle { startPowerOff { s with outstanding := none } with outstanding := none }

theorem closed_intStatus (s : State) :
    (cycleEnd (refreshStart s)).intStatus = s.intStatus ||| causeRefreshDone := rfl

theorem closed_raster (s : State) : (cycleEnd (refreshStart s)).raster = s.raster := rfl

theorem closed_partialCount (s : State) : (cycleEnd (refreshStart s)).partialCount = s.partialCount := rfl

theorem closed_panelLog (s : State) :
    (cycleEnd (refreshStart s)).panelLog = s.panelLog ++ [.refresh] ++ [.powerOff] := rfl

section
variable {s : State} (released : s.resetHeld = false)
include released

theorem runEvents_toPass (idle : s.schedState = .idle) (dirty : s.dirty = true) :
    runEvents [.tick, .panelAnswer .ok, .panelAnswer .ok] s = .next (passStart s) := by
  have starts : agentStep .tick s = .next (startCycle { s with pollElapsed := 0 }) :=
    congrArg _ (tick_starts idle dirty)
  rw [runEvents_cons released starts, runEvents_cons (by exact released) (agentStep_ok (op := .powerOn) rfl),
    runEvents_cons (by exact released) (agentStep_ok (op := .selectLut) rfl)]
  rfl

theorem runEvents_fromRefresh (outstanding : s.outstanding = some .refresh) :
    runEvents [.panelAnswer .ok, .panelAnswer .ok] s = .next (cycleEnd s) := by
  rw [runEvents_cons released (agentStep_ok outstanding),
    runEvents_cons (by exact released) (agentStep_ok (op := .powerOff) rfl)]
  rfl

/-- A one-plane panel has no further plane, so OK to DRAW goes on to REFRESH (R209). -/
theorem runEvents_fromDraw (outstanding : s.outstanding = some .draw) (one_plane : s.cfg.panelPlanes = 1) :
    runEvents [.panelAnswer .ok, .panelAnswer .ok, .panelAnswer .ok] s =
      .next (cycleEnd (refreshStart s)) := by
  have last : s.cfg.panelPlanes ≤ s.plane.toNat + 1 := one_plane.trans_le (Nat.le_add_left 1 _)
  have refreshes : agentStep (.panelAnswer .ok) s =
      .next (refreshStart s) :=
    agentStep_panelAnswer_ok outstanding (nextPlane_of_le last)
  rw [runEvents_cons released refreshes]
  exact runEvents_fromRefresh released rfl

end

/-- Settles O49. The cycle is followed in three parts: to the draw phase, the pass of `runEvents_drawPass`, and from DRAW
back to IDLE; the fields of the last state are then read off. -/
theorem cleanCycleSendsWholeRaster : Obligations.CleanCycleSendsWholeRaster := by
  intro s inv released idle dirty one_plane
  have pass : runEvents (List.replicate s.cfg.rasterBytes .schedStep) (passStart s) = .next (passEnd s) :=
    runEvents_drawPass (s := passStart s) released rfl rfl (rasterBytes_pos inv.registers.legal)
  have opened := runEvents_append (es' := List.replicate s.cfg.rasterBytes .schedStep)
    (runEvents_toPass released idle dirty)
  have closed := runEvents_fromDraw (s := passEnd s) released rfl one_plane
  refine ⟨cycleEnd (refreshStart (passEnd s)), ?_, ?_, rfl, rfl, rfl, rfl, closed_raster _, ?_, closed_intStatus _⟩
  · rw [runEvents_append (opened.trans pass), closed]
  · rw [closed_panelLog, passEnd, issueRequest_panelLog, passAt, passStart, decidedLut]
    simp only [List.append_assoc, List.cons_append, List.nil_append]
  · rw [closed_partialCount]
    change (decidedCount s).toNat = _
    rw [decidedCount]
    split_ifs with below
    · exact toNat_add_one_of_lt below
    · rfl

/-! ### The sequence of decisions (R215) -/

theorem decideMode_threshold (s : State) : (decideMode s).threshold = s.threshold := rfl

theorem threshold_iterate (s : State) (n : Nat) : (decideMode^[n] s).threshold = s.threshold := by
  induction n with
  | zero => rfl
  | succ n ih => rw [Function.iterate_succ_apply', decideMode_threshold, ih]

/-- One decision counts modulo THRESHOLD + 1, from a count that is at most THRESHOLD. -/
theorem toNat_decidedCount {s : State} (le : s.partialCount.toNat ≤ s.threshold.toNat) :
    (decidedCount s).toNat = (s.partialCount.toNat + 1) % (s.threshold.toNat + 1) := by
  by_cases below : s.partialCount.toNat < s.threshold.toNat
  · rw [decidedCount, if_pos below, toNat_add_one_of_lt below, Nat.mod_eq_of_lt (Nat.succ_lt_succ below)]
  · rw [decidedCount, if_neg below, le.antisymm (Nat.not_lt.mp below), Nat.mod_self]
    rfl

theorem partialCount_iterate {s : State} (start : s.partialCount = 0) (n : Nat) :
    (decideMode^[n] s).partialCount.toNat = n % (s.threshold.toNat + 1) := by
  induction n with
  | zero => simp [start]
  | succ n ih =>
    have le : (decideMode^[n] s).partialCount.toNat ≤ (decideMode^[n] s).threshold.toNat := by
      rw [ih, threshold_iterate]
      exact Nat.lt_succ_iff.mp (Nat.mod_lt _ (Nat.succ_pos _))
    rw [Function.iterate_succ_apply']
    change (decidedCount _).toNat = _
    rw [toNat_decidedCount le, ih, threshold_iterate, Nat.mod_add_mod]

theorem decidedLut_full_iff (s : State) : decidedLut s = .fullLut ↔ s.threshold.toNat ≤ s.partialCount.toNat := by
  rw [decidedLut]
  split_ifs with below
  · simpa using below
  · simpa using below

/-- Settles O50. The count after n decisions is known by induction, and decision n + 1 is FULL when it has reached
THRESHOLD, which it never exceeds. -/
theorem decisionsCountWithPeriod : Obligations.DecisionsCountWithPeriod := by
  intro s n start
  refine ⟨partialCount_iterate start n, ?_⟩
  have le : n % (s.threshold.toNat + 1) ≤ s.threshold.toNat := Nat.lt_succ_iff.mp (Nat.mod_lt _ (Nat.succ_pos _))
  rw [Function.iterate_succ_apply']
  change decidedLut _ = .fullLut ↔ _
  rw [decidedLut_full_iff, partialCount_iterate start, threshold_iterate]
  omega

/-! ### What the scheduler writes (R217) -/

/-- A state with the scheduler's fields, the panel's record and DIRTY, PARTIAL_COUNT, the failure registers and INT_STATUS
taken from another. -/
def withSchedulerFields (s t : State) : State :=
  { s with
    schedState := t.schedState
    schedPhase := t.schedPhase
    plane := t.plane
    lut := t.lut
    drawIndex := t.drawIndex
    drawBuf := t.drawBuf
    outstanding := t.outstanding
    panelLog := t.panelLog
    pollElapsed := t.pollElapsed
    dirty := t.dirty
    partialCount := t.partialCount
    panelFailCount := t.panelFailCount
    lastFailOp := t.lastFailOp
    lastFailPlane := t.lastFailPlane
    intStatus := t.intStatus }

/-- The write set of R217, with DIRTY never set and INT_STATUS bits 0, 1 and 4 kept. -/
structure SchedulerWrites (s t : State) : Prop where
  frame : t = withSchedulerFields s t
  dirty : t.dirty = true → s.dirty = true
  causes : ∀ b, b = 0 ∨ b = 1 ∨ b = 4 → t.intStatus.getLsbD b = s.intStatus.getLsbD b

theorem schedulerWrites_tick (s : State) : SchedulerWrites s (tick s) := by
  obtain ⟨_, _, starts⟩ | ⟨_, other⟩ := tick_cases s
  · rw [starts]; exact ⟨rfl, id, fun _ _ => rfl⟩
  · rw [other]; exact ⟨rfl, id, fun _ _ => rfl⟩

theorem schedulerWrites_schedStep (s : State) : SchedulerWrites s (schedStep s) := by
  unfold schedStep issueDrawWhenRead readDrawByte
  split_ifs <;> exact ⟨rfl, id, fun _ _ => rfl⟩

/-- Bits 2 and 3 are no bits that the scheduler must keep. -/
theorem getLsbD_or_cause {v cause : BitVec 5} (own : cause = causeRefreshDone ∨ cause = causeRefreshFail) {b : Nat}
    (kept : b = 0 ∨ b = 1 ∨ b = 4) : (v ||| cause).getLsbD b = v.getLsbD b := by
  rw [BitVec.getLsbD_or]
  rcases own with rfl | rfl <;> rcases kept with rfl | rfl | rfl <;> exact Bool.or_false _

theorem schedulerWrites_onPanelOk (op : PanelOp) (s : State) :
    SchedulerWrites s (onPanelOk op { s with outstanding := none }) := by
  cases op with
  | powerOn | selectLut | refresh => exact ⟨rfl, id, fun _ _ => rfl⟩
  | draw =>
    unfold onPanelOk nextPlane
    dsimp only
    split_ifs <;> exact ⟨rfl, id, fun _ _ => rfl⟩
  | powerOff => exact ⟨rfl, nofun, fun b kept => getLsbD_or_cause (.inl rfl) kept⟩

theorem schedulerWrites_abortCycle (op : PanelOp) (s : State) :
    SchedulerWrites s (abortCycle op { s with outstanding := none }) :=
  ⟨rfl, id, fun _ kept => getLsbD_or_cause (.inr rfl) kept⟩

theorem schedulerWrites_panelAnswer (a : PanelAnswer) (s : State) : SchedulerWrites s (panelAnswer a s) := by
  obtain ⟨_, nothing⟩ | ⟨op, _, _, ok⟩ | ⟨op, _, _, fail⟩ := panelAnswer_cases a s
  · rw [nothing]; exact ⟨rfl, id, fun _ _ => rfl⟩
  · rw [ok]; exact schedulerWrites_onPanelOk op s
  · rw [fail]; exact schedulerWrites_abortCycle op s

/-- Settles O51, by the three events of the scheduler, the panel and the timer. -/
theorem schedulerWritesOnlyItsOwn : Obligations.SchedulerWritesOnlyItsOwn := by
  rintro s t e (rfl | rfl | ⟨a, rfl⟩) stepped <;> cases stepped
  · obtain ⟨frame, dirty, causes⟩ := schedulerWrites_tick s
    exact ⟨frame, dirty, causes⟩
  · obtain ⟨frame, dirty, causes⟩ := schedulerWrites_schedStep s
    exact ⟨frame, dirty, causes⟩
  · obtain ⟨frame, dirty, causes⟩ := schedulerWrites_panelAnswer a s
    exact ⟨frame, dirty, causes⟩

end Sys2Proof.Proofs
end

section
/-! PROOFS. The invariant of the machine (10_state.md R36, R44 to R51): it holds at reset, and every operation that a step
is made of keeps it. -/

namespace Sys2Proof.Proofs

open Sys2Proof Sys2Proof.Machine

/-! ### Fields that the invariant does not read -/

/-- A state with the fields that the invariant does not read taken from another. -/
def withUnread (s t : State) : State :=
  { s with
    result := t.result
    tileOrigin := t.tileOrigin
    tileSize := t.tileSize
    srcAddr := t.srcAddr
    dirty := t.dirty
    intStatus := t.intStatus
    intEnable := t.intEnable
    fallbackCount := t.fallbackCount
    panelFailCount := t.panelFailCount
    lut := t.lut
    pollElapsed := t.pollElapsed
    srcChanged := t.srcChanged
    busReply := t.busReply
    panelLog := t.panelLog
    resetHeld := t.resetHeld
    schedule := t.schedule
    program := t.program
    freeCount := t.freeCount }

theorem machineInv_of_unread {s t : State} (inv : MachineInv s) (frame : t = withUnread s t) : MachineInv t := by
  obtain ⟨registers, memory, tile, scheduler⟩ := inv
  rw [frame]
  exact {
    registers := { registers with }
    memory := { memory with }
    tile := fun busy => { tile busy with }
    scheduler := { scheduler with } }

/-! ### Reset (R52, R265) -/

theorem machineInv_resetWith {p : Params} (legal : p.Legal) : MachineInv (resetWith p) where
  registers := {
    legal := legal
    lastMode_ne := nofun
    lastMode_eq := fun enabled => absurd rfl enabled
    errCode_le := Nat.zero_le _
    errOverflow_code := nofun
    partial_le := Nat.le_refl _
    accRows_cases := .inl rfl
    accRows_zero_iff := iff_of_true rfl rfl
    accWidth_le := Nat.zero_le _
    lastFailOp_le := Nat.zero_le _
    lastFailPlane_draw := fun failed => absurd rfl failed }
  memory := {
    raster_wf := (reset_memory_wf p).1
    src_wf := (reset_memory_wf p).2
    row0_length := List.length_replicate
    row1_length := List.length_replicate
    row2_length := List.length_replicate }
  tile := nofun
  scheduler := {
    idle_iff := iff_of_true rfl rfl
    plane_lt := by rcases legal.panelPlanes_range with h | h <;> simp [resetWith, h]
    plane_zero := fun _ => rfl
    outstanding_eq := fun _ => rfl
    draw_pass := nofun }

theorem defaultParams_legal : defaultParams.Legal where
  screenW_range := by decide
  screenH_range := by decide
  accRowCells_range := by decide
  panelPlanes_range := by decide
  pollInterval_pos := by decide
  bayer_perm := by decide
  rasterBytes_fits := by decide

/-- Settles O53. -/
theorem resetMeetsTheInvariant : Obligations.ResetMeetsTheInvariant := machineInv_resetWith defaultParams_legal

/-- Reset keeps the source memory (assumption 12), which is canonical already, and the fields around the block. -/
theorem machineInv_assertReset {s : State} (inv : MachineInv s) : MachineInv (assertReset s) := by
  obtain ⟨registers, memory, tile, scheduler⟩ := machineInv_resetWith inv.registers.legal
  exact {
    registers := { registers with }
    memory := { memory with src_wf := inv.memory.src_wf }
    tile := nofun
    scheduler := { scheduler with } }

/-! ### ERR and THRESHOLD (R31, R34, R241) -/

theorem machineInv_raiseCmdError {s : State} (inv : MachineInv s) (e : CmdError) : MachineInv (raiseCmdError e s) := by
  obtain ⟨registers, memory, tile, scheduler⟩ := inv
  have code_le : (errorCode e).toNat ≤ 5 := by cases e <;> decide
  have code_ne : errorCode e ≠ 0 := by cases e <;> decide
  exact {
    registers := { registers with
      errCode_le := by
        rw [raiseCmdError_errCode]
        split_ifs
        · exact code_le
        · exact registers.errCode_le
      errOverflow_code := fun _ => by
        rw [raiseCmdError_errCode]
        split_ifs with clear
        · exact code_ne
        · exact clear }
    memory := { memory with }
    tile := fun busy => { tile busy with }
    scheduler := { scheduler with } }

theorem machineInv_clearCmdError {s : State} (inv : MachineInv s) : MachineInv (clearCmdError s) := by
  obtain ⟨registers, memory, tile, scheduler⟩ := inv
  exact {
    registers := { registers with errCode_le := by simp, errOverflow_code := nofun }
    memory := { memory with }
    tile := fun busy => { tile busy with }
    scheduler := { scheduler with } }

/-- A register write keeps the invariant: THRESHOLD clears the count with it (R34), and the rest is ERR or unread. -/
theorem machineInv_regWrite {s t : State} (inv : MachineInv s) {r : Reg} {v : Word} (written : regWrite r v s = some t) :
    MachineInv t := by
  cases r with
  | tileOrigin | tileSize | srcAddr | intStatus | intEnable =>
    cases written
    exact machineInv_of_unread inv rfl
  | err =>
    cases written
    exact machineInv_clearCmdError inv
  | threshold =>
    cases written
    obtain ⟨registers, memory, tile, scheduler⟩ := inv
    exact {
      registers := { registers with partial_le := Nat.zero_le _ }
      memory := { memory with }
      tile := fun busy => { tile busy with }
      scheduler := { scheduler with } }
  | id | geometry | caps | cmd | result | mode | status | partialCount | accAlloc | fallbackCount | panelFailCount
  | lastPanelFail => cases written

/-! ### Mode control while no tile runs (R130 to R134) -/

section
variable {s : State} (inv : MachineInv s) (ready : s.busy = false)
include inv ready

theorem machineInv_discardBuffers : MachineInv (discardBuffers s) := by
  obtain ⟨registers, memory, tile, scheduler⟩ := inv
  exact {
    registers := { registers with
      accRows_cases := .inl rfl
      accRows_zero_iff := by simp
      accWidth_le := Nat.zero_le _ }
    memory := { memory with }
    tile := fun busy => absurd (ready.symm.trans busy) nofun
    scheduler := { scheduler with } }

theorem machineInv_setModeEffect (m : DitherMode) : MachineInv (setModeEffect m s) := by
  obtain ⟨_, unchanged⟩ | ⟨_, changed⟩ := setModeEffect_cases m s
  · rw [unchanged]; exact inv
  rw [changed]
  obtain ⟨registers, memory, tile, scheduler⟩ := machineInv_discardBuffers inv ready
  exact {
    registers := { registers with
      lastMode_ne := by
        dsimp only
        split_ifs with disabled
        · exact inv.registers.lastMode_ne
        · exact disabled
      lastMode_eq := fun enabled => if_neg enabled }
    memory := { memory with }
    tile := fun busy => absurd (ready.symm.trans busy) nofun
    scheduler := { scheduler with } }

end

/-! ### Acceptance of a tile (R140 to R144) -/

/-- What the argument checks of R141 leave. -/
theorem convertArgError_none {fmt : Format} {bpp : BitVec 3} {s : State} (passed : convertArgError fmt bpp s = none) :
    (1 ≤ bpp.toNat ∧ bpp.toNat ≤ 4) ∧ (fmt = .rgb565 → 2 ≤ bpp.toNat) ∧
      s.srcAddr.toNat + (tileW s).toNat * (tileH s).toNat * bpp.toNat ≤ 2 ^ 32 ∧
      (tileX s).toNat + (tileW s).toNat ≤ s.cfg.screenW ∧ (tileY s).toNat + (tileH s).toNat ≤ s.cfg.screenH := by
  unfold convertArgError at passed
  split_ifs at passed with bpp_bad rgb565_bad source_bad bounds_bad
  refine ⟨by omega, fun rgb565 => ?_, Nat.not_lt.mp source_bad, by omega, by omega⟩
  exact Nat.not_lt.mp fun small => rgb565_bad ⟨rgb565, small⟩

/-- The algorithm chosen is the mode or DISABLED, and one that diffuses error has its rows (R142, R143). -/
structure Chosen (w : Nat) (s : State) (a : DitherMode) (u : State) : Prop where
  registers : RegisterInv u
  algo_mode : a = s.mode ∨ a = .disabled
  alloc : diffuses a = true → u.accRows.toNat = modeRows a ∧ w + modePad a ≤ u.accWidth.toNat

theorem chosen_allocate {s : State} (registers : RegisterInv s) (diffusing : diffuses s.mode = true) (w : Nat) :
    Chosen w s (allocate s.mode w s).1 (allocate s.mode w s).2 := by
  obtain ⟨reuse, reused⟩ | ⟨room, recreated⟩ | ⟨_, fallen_back⟩ := allocate_cases s.mode w s
  · rw [reused]
    exact ⟨registers, .inl rfl, fun _ => (canReuse_iff _ _ _).mp reuse⟩
  · have cells := registers.legal.accRowCells_range
    have pad_pos : 0 < modePad s.mode := by
      revert diffusing; cases s.mode <;> decide
    have rows : BitVec.ofNat 2 (modeRows s.mode) = 2#2 ∨ BitVec.ofNat 2 (modeRows s.mode) = 3#2 := by
      revert diffusing; cases s.mode <;> decide
    have rows_toNat : (BitVec.ofNat 2 (modeRows s.mode)).toNat = modeRows s.mode := by cases s.mode <;> rfl
    have width : (BitVec.ofNat 16 (w + modePad s.mode)).toNat = w + modePad s.mode :=
      toNat_ofNat_of_lt (by omega)
    rw [recreated]
    refine ⟨{ registers with
        accRows_cases := .inr rows
        accRows_zero_iff := ?_
        accWidth_le := width.trans_le room }, .inl rfl, fun _ => ⟨rows_toNat, width.ge⟩⟩
    refine iff_of_false (fun zero => ?_) (fun zero => ?_)
    · rcases rows with h | h <;> exact absurd (h.symm.trans zero) (by decide)
    · have := congrArg BitVec.toNat zero
      rw [width] at this
      simp at this
      omega
  · rw [fallen_back]
    exact ⟨{ registers with
        accRows_cases := .inl rfl
        accRows_zero_iff := iff_of_true rfl rfl
        accWidth_le := Nat.zero_le _ }, .inr rfl, nofun⟩

theorem chosen_chooseAlgo {s : State} (registers : RegisterInv s) (w : Nat) :
    Chosen w s (chooseAlgo w s).1 (chooseAlgo w s).2 := by
  cases diffusing : diffuses s.mode with
  | false =>
    rw [chooseAlgo_stateless w diffusing]
    exact ⟨registers, .inl rfl, fun diffuses_it => absurd (diffusing.symm.trans diffuses_it) nofun⟩
  | true =>
    rw [chooseAlgo_diffusing w diffusing]
    exact chosen_allocate registers diffusing w

theorem memoryInv_acc {s t : State} (memory : MemoryInv s) (raster : t.raster = s.raster) (src : t.src = s.src)
    (cfg : t.cfg = s.cfg) (shape : t.acc.sameShape s.acc) : MemoryInv t := by
  obtain ⟨row0, row1, row2⟩ := shape
  refine ⟨?_, ?_, ?_, ?_, ?_⟩
  · rw [raster, cfg]; exact memory.raster_wf
  · rw [src]; exact memory.src_wf
  · rw [row0, cfg]; exact memory.row0_length
  · rw [row1, cfg]; exact memory.row1_length
  · rw [row2, cfg]; exact memory.row2_length

theorem machineInv_acceptTile {s : State} (inv : MachineInv s) {fmt : Format} {bpp : BitVec 3}
    (passed : convertArgError fmt bpp s = none) : MachineInv (acceptTile fmt bpp s) := by
  obtain ⟨bpp_range, rgb565_bpp, src_fits, x_fits, y_fits⟩ := convertArgError_none passed
  obtain ⟨rows, width, count, causes, frame⟩ := chooseAlgo_frame (tileW s).toNat s
  obtain ⟨registers, algo_mode, alloc⟩ := chosen_chooseAlgo inv.registers (tileW s).toNat
  change MachineInv (latchTile fmt bpp (chooseAlgo (tileW s).toNat s).1 (chooseAlgo (tileW s).toNat s).2)
  generalize (chooseAlgo (tileW s).toNat s).1 = a at *
  generalize (chooseAlgo (tileW s).toNat s).2 = u at *
  subst frame
  exact {
    registers := { registers with }
    memory := memoryInv_acc inv.memory rfl rfl rfl (clearForTile_sameShape _ _ _)
    tile := fun _ => {
      x_fits := x_fits
      y_fits := y_fits
      bpp_range := bpp_range
      rgb565_bpp := rgb565_bpp
      src_fits := src_fits
      row_le := Nat.zero_le _
      col_lt := lt_max_of_lt_right Nat.one_pos
      col_at_end := fun _ => rfl
      algo_mode := algo_mode
      alloc := alloc }
    scheduler := { inv.scheduler with } }

/-- Every command that passes its checks keeps the invariant. -/
theorem machineInv_commandEffect {s : State} (inv : MachineInv s) (ready : s.busy = false) {i : Instr}
    (passed : argError i s = none) : MachineInv (commandEffect i s) := by
  cases i with
  | setMode m => exact machineInv_setModeEffect inv ready m
  | setEnabled e => exact machineInv_setModeEffect inv ready _
  | getMode | isEnabled | sampleLuma => exact machineInv_of_unread inv rfl
  | freeBuffers => exact machineInv_discardBuffers inv ready
  | convertArea fmt bpp => exact machineInv_acceptTile inv passed

end Sys2Proof.Proofs
end

section
/-! PROOFS. Transfers on the bus, once for every statement about steps (20_memory.md R61 to R66, 30_encoding.md R96): what
a transfer can do to the state, which fields it leaves, and that it keeps the invariant. -/

namespace Sys2Proof.Proofs

open Sys2Proof Sys2Proof.Machine Sys2Proof.Claims

/-! ### What a transfer can do -/

/-- What a transfer can do to the state, where `issues w` says that it writes the command word `w` to CMD: answer alone,
write a register, reject the word, or run its command. -/
inductive TransferEffect (issues : Word → Prop) (s : State) : State → Prop
  | answered (r : BusReply) : TransferEffect issues s (setReply r s)
  | written {r : Reg} {v : Word} {u : State} (stored : regWrite r v s = some u) :
      TransferEffect issues s (replyWrite u)
  | rejected (e : CmdError) : TransferEffect issues s (raiseCmdError e (replyWrite s))
  | ran {w : Word} {i : Instr} (issued : issues w) (ready : s.busy = false) (decoded : decode w = .ok i)
      (passed : argError i s = none) : TransferEffect issues s (commandEffect i (replyWrite s))

theorem regOffset_of_locate {p : Params} {off : Nat} {r : Reg} (h : locate p off = .reg r) : regOffset r = off := by
  unfold locate at h
  split_ifs at h
  cases found : allRegs.find? (fun r => regOffset r == off) with
  | none => rw [found] at h; cases h
  | some r' =>
    rw [found] at h
    cases h
    simpa using List.find?_some found

/-- The checks of a command do not read the bus response. -/
theorem argError_replyWrite (i : Instr) (s : State) : argError i (replyWrite s) = argError i s := by
  cases i <;> rfl

/-- A command word is rejected, or it runs its command. -/
theorem issueCommand_outcome (w : Word) (s : State) :
    (∃ e, issueCommand w s = .next (raiseCmdError e s)) ∨
    (s.busy = false ∧ ∃ i, decode w = .ok i ∧ argError i s = none ∧ issueCommand w s = .next (commandEffect i s)) := by
  cases check : commandError w s with
  | some e => exact .inl ⟨e, issueCommand_rejected check⟩
  | none =>
    obtain ⟨i, _, decoded, issued, _⟩ := issueCommand_accepted check
    have ready : s.busy = false := by
      cases busy : s.busy with
      | true => rw [commandError_busy busy] at check; cases check
      | false => rfl
    have passed : argError i s = none := (commandError_decoded ready decoded).symm.trans check
    exact .inr ⟨ready, i, decoded, passed, issued.trans (exec_ready ready passed)⟩

theorem writeReg_effect (r : Reg) (d : Word) (s : State) :
    ∃ t, writeReg r d s = .next t ∧ TransferEffect (fun w => r = .cmd ∧ w = d) s t := by
  by_cases cmd : r = .cmd
  · rw [writeReg, if_pos cmd]
    obtain ⟨e, rejects⟩ | ⟨ready, i, decoded, passed, runs⟩ := issueCommand_outcome d (replyWrite s)
    · exact ⟨_, rejects, .rejected e⟩
    · rw [argError_replyWrite] at passed
      exact ⟨_, runs, .ran ⟨cmd, rfl⟩ ready decoded passed⟩
  · rw [writeReg, if_neg cmd]
    cases stored : regWrite r d s with
    | none => exact ⟨_, rfl, .answered _⟩
    | some u => exact ⟨_, rfl, .written stored⟩

theorem TransferEffect.mono {issues issues' : Word → Prop} {s t : State} (weaker : ∀ w, issues w → issues' w)
    (h : TransferEffect issues s t) : TransferEffect issues' s t := by
  cases h with
  | answered r => exact .answered r
  | written stored => exact .written stored
  | rejected e => exact .rejected e
  | ran issued ready decoded passed => exact .ran (weaker _ issued) ready decoded passed

/-- A bus write always completes; it issues a word only where it is the write of that word to CMD (R24, R90). -/
theorem busWrite_effect (off : Offset) (size : Nat) (d : Word) (s : State) :
    ∃ t, busWrite off size d s = .next t ∧ TransferEffect (fun w => Event.busWrite off size d = cmdWrite w) s t := by
  unfold busWrite
  split_ifs with legal
  · cases place : locate s.cfg off.toNat with
    | reg r =>
      obtain ⟨t, written, effect⟩ := writeReg_effect r d s
      refine ⟨t, written, effect.mono ?_⟩
      rintro w ⟨rfl, rfl⟩
      obtain ⟨rfl, _⟩ := (transferLegal_iff off size).mp legal
      have at_cmd : off = 0x010 := BitVec.eq_of_toNat_eq (regOffset_of_locate place).symm
      rw [at_cmd, cmdWrite]
    | window k => exact ⟨_, rfl, .answered _⟩
    | reserved => exact ⟨_, rfl, .answered _⟩
  · exact ⟨_, rfl, .answered _⟩

theorem busRead_effect (issues : Word → Prop) (off : Offset) (size : Nat) (s : State) :
    TransferEffect issues s (busRead off size s) := by
  obtain ⟨r, answered⟩ := busRead_state off size s
  rw [answered]
  exact .answered r

/-- A step of the host's program does nothing, or makes its transfer with the program moved on or left (R66, R99). -/
theorem hostStep_effect (s : State) :
    ∃ t, hostStep s = .next t ∧
      (t = s ∨ ∃ p, TransferEffect (fun w => ∃ rest, s.program = .write 0x010 w :: rest) (setProgram p s) t) := by
  obtain ⟨_, done⟩ | ⟨off, rest, _, reads⟩ | ⟨off, v, rest, next_op, writes⟩ | ⟨rest, _, waits⟩ := hostStep_cases s
  · exact ⟨s, done, .inl rfl⟩
  · exact ⟨_, reads, .inr ⟨rest, busRead_effect _ _ _ _⟩⟩
  · obtain ⟨t, written, effect⟩ := busWrite_effect off 32 v (setProgram rest s)
    refine ⟨t, writes.trans written, .inr ⟨rest, effect.mono fun w same => ?_⟩⟩
    cases same
    exact ⟨rest, next_op⟩
  · refine ⟨_, waits, .inr ?_⟩
    rw [pollStatus_eq]
    split_ifs
    · exact ⟨s.program, .answered _⟩
    · exact ⟨rest, .answered _⟩

/-! ### The fields that a transfer leaves -/

/-- A state with the fields that a transfer may write taken from another: neither DIRTY, nor the raster and the source
memory, nor anything of the scheduler, the panel and the timer is among them. -/
def withHostFields (s t : State) : State :=
  { s with
    result := t.result
    tileOrigin := t.tileOrigin
    tileSize := t.tileSize
    srcAddr := t.srcAddr
    mode := t.mode
    lastMode := t.lastMode
    busy := t.busy
    errCode := t.errCode
    errOverflow := t.errOverflow
    intStatus := t.intStatus
    intEnable := t.intEnable
    threshold := t.threshold
    partialCount := t.partialCount
    accRows := t.accRows
    accWidth := t.accWidth
    fallbackCount := t.fallbackCount
    lx := t.lx
    ly := t.ly
    lw := t.lw
    lh := t.lh
    lsrc := t.lsrc
    lfmt := t.lfmt
    lbpp := t.lbpp
    algo := t.algo
    curR := t.curR
    curC := t.curC
    acc := t.acc
    srcChanged := t.srcChanged
    busReply := t.busReply
    program := t.program }

theorem commandEffect_frame (i : Instr) (s : State) : commandEffect i s = withHostFields s (commandEffect i s) := by
  have set_mode (m : DitherMode) : setModeEffect m s = withHostFields s (setModeEffect m s) := by
    obtain ⟨_, unchanged⟩ | ⟨_, changed⟩ := setModeEffect_cases m s
    · rw [unchanged]; rfl
    · rw [changed]; rfl
  cases i with
  | setMode m => exact set_mode m
  | setEnabled e => exact set_mode _
  | getMode | isEnabled | freeBuffers | sampleLuma => rfl
  | convertArea fmt bpp =>
    obtain ⟨rows, width, count, causes, frame⟩ := chooseAlgo_frame (tileW s).toNat s
    simp only [commandEffect, acceptTile, frame]
    rfl

theorem regWrite_frame {r : Reg} {v : Word} {s u : State} (stored : regWrite r v s = some u) :
    u = withHostFields s u := by
  cases r with
  | tileOrigin | tileSize | srcAddr | err | intStatus | intEnable | threshold => cases stored; rfl
  | id | geometry | caps | cmd | result | mode | status | partialCount | accAlloc | fallbackCount | panelFailCount
  | lastPanelFail => cases stored

theorem transferEffect_frame {issues : Word → Prop} {s t : State} (h : TransferEffect issues s t) :
    t = withHostFields s t := by
  cases h with
  | answered r => rfl
  | written stored => exact congrArg replyWrite (regWrite_frame stored)
  | rejected e => rfl
  | ran _ _ _ _ => exact commandEffect_frame _ _

/-! ### The invariant under a transfer -/

theorem machineInv_transfer {issues : Word → Prop} {s t : State} (inv : MachineInv s) (h : TransferEffect issues s t) :
    MachineInv t := by
  have replied_inv (u : State) (r : BusReply) (inv : MachineInv u) : MachineInv (setReply r u) :=
    machineInv_of_unread inv rfl
  cases h with
  | answered r => exact replied_inv s r inv
  | written stored => exact replied_inv _ _ (machineInv_regWrite inv stored)
  | rejected e => exact machineInv_raiseCmdError (replied_inv s _ inv) e
  | @ran w i _ ready _ passed =>
    rw [← argError_replyWrite] at passed
    exact machineInv_commandEffect (replied_inv s _ inv) ready passed

end Sys2Proof.Proofs
end

section
/-! PROOFS. The invariant under the steps of the agents (41_dither_engine.md R150, 43_refresh_scheduler.md R202 to R213,
70_reset_and_hazards.md R265), with the three statements on every step. -/

namespace Sys2Proof.Proofs

open Sys2Proof Sys2Proof.Machine Sys2Proof.Claims

/-! ### The tile engine's step (R150, R185) -/

theorem byteIndex_lt {p : Params} {x y : Nat} (hx : x < p.screenW) (hy : y < p.screenH) :
    byteIndex p x y < p.rasterBytes := by
  have column : x / 8 < p.bytesPerRow := by unfold Params.bytesPerRow; omega
  calc byteIndex p x y
    _ < y * p.bytesPerRow + p.bytesPerRow := Nat.add_lt_add_left column _
    _ = (y + 1) * p.bytesPerRow := (Nat.succ_mul _ _).symm
    _ ≤ p.screenH * p.bytesPerRow := Nat.mul_le_mul_right _ hy
    _ = p.rasterBytes := Nat.mul_comm _ _

/-- A running tile with a pixel left has its cursor inside the tile. -/
theorem curC_lt {s : State} (tile : RunningTile s) (left : pixelLeft s = true) :
    s.curC < s.lw.toNat ∧ s.curR < s.lh.toNat := by
  obtain ⟨wide, row⟩ := (pixelLeft_iff s).mp left
  have column := tile.col_lt
  rw [max_eq_left wide] at column
  exact ⟨column, row⟩

section
variable {s : State} (tile : RunningTile s) (left : pixelLeft s = true)
include tile left

theorem pixelInRange_of_running : pixelInRange s = true := by
  obtain ⟨column, row⟩ := curC_lt tile left
  rw [pixelInRange_iff, pixelX, pixelY]
  exact ⟨(Nat.add_lt_add_left column _).trans_le tile.x_fits, (Nat.add_lt_add_left row _).trans_le tile.y_fits⟩

/-- The pixels up to the cursor's, each of LBPP bytes, lie inside the range that R141 checked. -/
theorem sourceInRange_of_running : sourceInRange s = true := by
  obtain ⟨column, row⟩ := curC_lt tile left
  obtain ⟨bpp_pos, _⟩ := tile.bpp_range
  have pixels : s.curR * s.lw.toNat + s.curC + 1 ≤ s.lw.toNat * s.lh.toNat := by
    calc s.curR * s.lw.toNat + s.curC + 1
      _ ≤ s.curR * s.lw.toNat + s.lw.toNat := Nat.add_le_add_left column _
      _ = (s.curR + 1) * s.lw.toNat := (Nat.succ_mul _ _).symm
      _ ≤ s.lh.toNat * s.lw.toNat := Nat.mul_le_mul_right _ row
      _ = s.lw.toNat * s.lh.toNat := Nat.mul_comm _ _
  have bytes : (s.curR * s.lw.toNat + s.curC) * s.lbpp.toNat + s.lbpp.toNat ≤
      s.lw.toNat * s.lh.toNat * s.lbpp.toNat := by
    rw [← Nat.succ_mul]
    exact Nat.mul_le_mul_right _ pixels
  have source := tile.src_fits
  rw [sourceInRange_iff, pixAddr]
  split_ifs with rgb565
  · have two_bytes := tile.rgb565_bpp rgb565
    omega
  · omega

theorem accInRange_of_running (registers : RegisterInv s) (memory : MemoryInv s) : accInRange s = true := by
  obtain ⟨column, _⟩ := curC_lt tile left
  rw [accInRange_iff]
  cases diffusing : diffuses s.algo with
  | false => exact .inl rfl
  | true =>
    obtain ⟨_, width⟩ := tile.alloc diffusing
    have cells := registers.accWidth_le
    have row0 := memory.row0_length
    have row1 := memory.row1_length
    have row2 := memory.row2_length
    simp only [AccFile.holds, decide_eq_true_eq, reduceCtorEq, false_or]
    omega

theorem runningTile_pixelEffect : RunningTile (pixelEffect s) := by
  obtain ⟨column, row⟩ := curC_lt tile left
  obtain ⟨x_fits, y_fits, bpp_range, rgb565_bpp, src_fits, row_le, col_lt, col_at_end, algo_mode, alloc⟩ := tile
  constructor
  case row_le | col_lt | col_at_end =>
    simp only [pixelEffect_curR, pixelEffect_curC, pixelEffect_lh, pixelEffect_lw]
    split_ifs <;> omega
  all_goals simpa

end

theorem memoryInv_pixelEffect {s : State} (memory : MemoryInv s) (in_range : pixelInRange s = true) :
    MemoryInv (pixelEffect s) := by
  obtain ⟨hx, hy⟩ := (pixelInRange_iff s).mp in_range
  have shape : (pixelEffect s).acc.sameShape s.acc := by
    rw [pixelEffect_acc]
    have dithered := ditherPixel_sameShape s.algo s.cfg (readLuma s).1 (pixelX s) (pixelY s) s.curR s.curC s.acc
    split_ifs
    · obtain ⟨row0, row1, row2⟩ := rowStart_sameShape s.algo s.lw.toNat (s.curR + 1)
        (ditherPixel s.algo s.cfg (readLuma s).1 (pixelX s) (pixelY s) s.curR s.curC s.acc).2
      exact ⟨row0.trans dithered.1, row1.trans dithered.2.1, row2.trans dithered.2.2⟩
    · exact dithered
  obtain ⟨row0, row1, row2⟩ := shape
  constructor
  case raster_wf =>
    rw [pixelEffect_raster, pixelEffect_cfg, pixelWrite_eq, rasterWrite_raster]
    exact Memory.wf_write _ _ _ _ _ memory.raster_wf (byteIndex_lt hx hy)
  case src_wf => simpa using memory.src_wf
  case row0_length => rw [row0, pixelEffect_cfg]; exact memory.row0_length
  case row1_length => rw [row1, pixelEffect_cfg]; exact memory.row1_length
  case row2_length => rw [row2, pixelEffect_cfg]; exact memory.row2_length

theorem machineInv_pixelEffect {s : State} (inv : MachineInv s) (busy : s.busy = true) (left : pixelLeft s = true) :
    MachineInv (pixelEffect s) where
  registers := by
    obtain ⟨legal, lastMode_ne, lastMode_eq, errCode_le, errOverflow_code, partial_le, accRows_cases, accRows_zero_iff,
      accWidth_le, lastFailOp_le, lastFailPlane_draw⟩ := inv.registers
    constructor <;> simpa
  memory := memoryInv_pixelEffect inv.memory (pixelInRange_of_running (inv.tile busy) left)
  tile := fun _ => runningTile_pixelEffect (inv.tile busy) left
  scheduler := by
    obtain ⟨idle_iff, plane_lt, plane_zero, outstanding_eq, draw_pass⟩ := inv.scheduler
    constructor <;> simpa

theorem machineInv_completeTile {s : State} (inv : MachineInv s) : MachineInv (completeTile s) := by
  obtain ⟨registers, memory, tile, scheduler⟩ := inv
  exact {
    registers := { registers with }
    memory := { memory with }
    tile := nofun
    scheduler := { scheduler with } }

theorem machineInv_tileStep {s t : State} (inv : MachineInv s) (stepped : tileStep s = .next t) : MachineInv t := by
  obtain ⟨_, rfl⟩ | ⟨busy, left, _, _, _, rfl⟩ | ⟨_, _, rfl⟩ := tileStep_next stepped
  · exact inv
  · exact machineInv_pixelEffect inv busy left
  · exact machineInv_completeTile inv

/-- Under the invariant the three stops of assumption 16 are out of reach: with a pixel left, the step is its effect. -/
theorem tileStep_pixel {s : State} (inv : MachineInv s) (busy : s.busy = true) (left : pixelLeft s = true) :
    tileStep s = .next (pixelEffect s) := by
  have tile := inv.tile busy
  simp [tileStep, pixelStep, busy, left, pixelInRange_of_running tile left, sourceInRange_of_running tile left,
    accInRange_of_running tile left inv.registers inv.memory]

theorem tileStep_idle {s : State} (idle : s.busy = false) : tileStep s = .next s := by
  simp [tileStep, idle]

theorem tileStep_complete {s : State} (busy : s.busy = true) (done : pixelLeft s = false) :
    tileStep s = .next (completeTile s) := by
  simp [tileStep, busy, done]

theorem completes_tileStep {s : State} (inv : MachineInv s) : Completes (tileStep s) := by
  cases busy : s.busy with
  | false => exact ⟨_, tileStep_idle busy⟩
  | true =>
    cases left : pixelLeft s with
    | true => exact ⟨_, tileStep_pixel inv busy left⟩
    | false => exact ⟨_, tileStep_complete busy left⟩

/-- Settles O29: a tile without rows left, or without columns, has no pixel left. -/
theorem completionStepEndsTile : Obligations.CompletionStepEndsTile := by
  intro s busy no_pixel
  have done : pixelLeft s = false := by
    rw [← Bool.not_eq_true, pixelLeft_iff]
    rintro ⟨wide, row⟩
    rcases no_pixel with empty | last
    · simp [empty] at wide
    · exact Nat.not_le.mpr row last
  exact tileStep_complete busy done

/-! ### The scheduler, the panel and the timer (R202 to R213) -/

/-- A step that keeps to R217's write set keeps the invariant if it leaves its own registers and fields in order. -/
theorem machineInv_of_schedulerFields {s t : State} (inv : MachineInv s) (frame : t = withSchedulerFields s t)
    (partial_le : t.partialCount.toNat ≤ s.threshold.toNat) (lastFailOp_le : t.lastFailOp.toNat ≤ 5)
    (lastFailPlane_draw : t.lastFailPlane ≠ 0 → t.lastFailOp = 3) (scheduler : SchedulerInv t) : MachineInv t := by
  obtain ⟨registers, memory, tile, _⟩ := inv
  rw [frame]
  rw [frame] at scheduler
  exact {
    registers := { registers with
      partial_le := partial_le
      lastFailOp_le := lastFailOp_le
      lastFailPlane_draw := lastFailPlane_draw }
    memory := { memory with }
    tile := fun busy => { tile busy with }
    scheduler := { scheduler with } }

/-- The request outstanding tells the phase (R30, R200). -/
theorem phase_of_outstanding {s : State} (scheduler : SchedulerInv s) {op : PanelOp} (outstanding : s.outstanding = some op) :
    phaseRequest s.schedPhase = some op := by
  by_cases draw_phase : s.schedPhase = .draw
  · obtain ⟨_, ⟨free, _⟩ | ⟨draw, _⟩⟩ := scheduler.draw_pass draw_phase
    · rw [free] at outstanding; cases outstanding
    · rw [draw_phase, ← outstanding, draw]
      rfl
  · rw [← scheduler.outstanding_eq draw_phase, outstanding]

theorem running_of_outstanding {s : State} (scheduler : SchedulerInv s) {op : PanelOp}
    (outstanding : s.outstanding = some op) : s.schedState ≠ .idle := by
  have phase := phase_of_outstanding scheduler outstanding
  rw [ne_eq, scheduler.idle_iff]
  intro none_phase
  rw [none_phase] at phase
  cases phase

/-- In a phase other than DRAW the fields agree when that phase's request is outstanding and PLANE is 0. -/
theorem schedulerInv_waiting {s : State} (legal : s.cfg.Legal) (running : s.schedState ≠ .idle)
    (phase : s.schedPhase ≠ .none) (no_draw : s.schedPhase ≠ .draw) (plane : s.plane = 0)
    (outstanding : s.outstanding = phaseRequest s.schedPhase) : SchedulerInv s where
  idle_iff := iff_of_false running phase
  plane_lt := by rw [plane]; rcases legal.panelPlanes_range with h | h <;> simp [h]
  plane_zero := fun _ => plane
  outstanding_eq := fun _ => outstanding
  draw_pass := fun draw => absurd draw no_draw

/-- A draw pass at its start (R206, R209). -/
theorem schedulerInv_passStart {s : State} (legal : s.cfg.Legal) (running : s.schedState ≠ .idle)
    (draw_phase : s.schedPhase = .draw) (plane_lt : s.plane.toNat < s.cfg.panelPlanes) (free : s.outstanding = none)
    (index : s.drawIndex = 0) (buffer : s.drawBuf = []) : SchedulerInv s where
  idle_iff := iff_of_false running (by rw [draw_phase]; nofun)
  plane_lt := plane_lt
  plane_zero := fun no_draw => absurd draw_phase no_draw
  outstanding_eq := fun no_draw => absurd draw_phase no_draw
  draw_pass := fun _ => ⟨by rw [buffer, index]; rfl, .inl ⟨free, by rw [index]; exact rasterBytes_pos legal⟩⟩

theorem schedulerInv_toIdle {s : State} (legal : s.cfg.Legal) (free : s.outstanding = none) : SchedulerInv (toIdle s) where
  idle_iff := iff_of_true rfl rfl
  plane_lt := by rcases legal.panelPlanes_range with h | h <;> simp [toIdle, h]
  plane_zero := fun _ => rfl
  outstanding_eq := fun _ => free
  draw_pass := nofun

theorem machineInv_tick {s : State} (inv : MachineInv s) : MachineInv (tick s) := by
  obtain ⟨_, _, starts⟩ | ⟨_, other⟩ := tick_cases s
  · rw [starts]
    exact machineInv_of_schedulerFields inv rfl inv.registers.partial_le inv.registers.lastFailOp_le
      inv.registers.lastFailPlane_draw (schedulerInv_waiting inv.registers.legal nofun nofun nofun rfl rfl)
  · rw [other]
    exact machineInv_of_unread inv rfl

/-- In a draw pass under way, a byte is left to read (R208). -/
theorem drawIndex_lt {s : State} (inv : MachineInv s) (drawing_now : drawing s = true) :
    s.drawIndex < s.cfg.rasterBytes := by
  obtain ⟨draw_phase, free⟩ := (drawing_iff s).mp drawing_now
  obtain ⟨_, ⟨_, left⟩ | ⟨draw, _⟩⟩ := inv.scheduler.draw_pass draw_phase
  · exact left
  · rw [free] at draw; cases draw

theorem machineInv_schedStep {s : State} (inv : MachineInv s) : MachineInv (schedStep s) := by
  by_cases drawing_now : drawing s = true
  swap
  · rw [schedStep, if_neg drawing_now]; exact inv
  obtain ⟨draw_phase, free⟩ := (drawing_iff s).mp drawing_now
  obtain ⟨idle_iff, plane_lt, plane_zero, outstanding_eq, draw_pass⟩ := inv.scheduler
  obtain ⟨buffer, _⟩ := draw_pass draw_phase
  have buffer_grows (b : Byte) : (s.drawBuf ++ [b]).length = s.drawIndex + 1 := by simp [buffer]
  obtain left | last := Nat.lt_or_eq_of_le (Nat.succ_le_of_lt (drawIndex_lt inv drawing_now))
  · rw [schedStep_reads drawing_now left]
    exact machineInv_of_schedulerFields inv rfl inv.registers.partial_le inv.registers.lastFailOp_le
      inv.registers.lastFailPlane_draw
      { inv.scheduler with draw_pass := fun _ => ⟨buffer_grows _, .inl ⟨free, left⟩⟩ }
  · rw [schedStep_issues drawing_now last]
    exact machineInv_of_schedulerFields inv rfl inv.registers.partial_le inv.registers.lastFailOp_le
      inv.registers.lastFailPlane_draw
      { idle_iff := idle_iff
        plane_lt := plane_lt
        plane_zero := plane_zero
        outstanding_eq := fun no_draw => absurd draw_phase no_draw
        draw_pass := fun _ => ⟨buffer_grows _, .inr ⟨rfl, last⟩⟩ }

theorem decidedCount_le (s : State) : (decidedCount s).toNat ≤ s.threshold.toNat := by
  rw [decidedCount]
  split_ifs with below
  · rw [toNat_add_one_of_lt below]; exact below
  · exact Nat.zero_le _

theorem machineInv_onPanelOk {s : State} (inv : MachineInv s) {op : PanelOp} (outstanding : s.outstanding = some op) :
    MachineInv (onPanelOk op { s with outstanding := none }) := by
  have legal := inv.registers.legal
  have running := running_of_outstanding inv.scheduler outstanding
  have phase := phase_of_outstanding inv.scheduler outstanding
  have plane_zero (other : op ≠ .draw) : s.plane = 0 := by
    refine inv.scheduler.plane_zero fun draw_phase => ?_
    rw [draw_phase] at phase
    exact other (Option.some.inj phase).symm
  obtain ⟨frame, _, _⟩ := schedulerWrites_onPanelOk op s
  cases op with
  | powerOn =>
    exact machineInv_of_schedulerFields inv frame (decidedCount_le s) inv.registers.lastFailOp_le
      inv.registers.lastFailPlane_draw (schedulerInv_waiting legal running nofun nofun (plane_zero nofun) rfl)
  | selectLut =>
    have one_plane : 0 < s.cfg.panelPlanes := by rcases legal.panelPlanes_range with h | h <;> omega
    exact machineInv_of_schedulerFields inv frame inv.registers.partial_le inv.registers.lastFailOp_le
      inv.registers.lastFailPlane_draw (schedulerInv_passStart legal running rfl one_plane rfl rfl rfl)
  | draw =>
    have draw_phase : s.schedPhase = .draw := by
      revert phase; cases s.schedPhase <;> simp [phaseRequest]
    by_cases further : s.plane.toNat + 1 < s.cfg.panelPlanes
    · have next_plane : (s.plane + 1).toNat < s.cfg.panelPlanes := by
        rw [BitVec.toNat_add]
        exact (Nat.mod_le _ _).trans_lt further
      have goes : onPanelOk .draw { s with outstanding := none } =
          { s with outstanding := none, plane := s.plane + 1, drawIndex := 0, drawBuf := [] } := nextPlane_of_lt further
      rw [goes]
      exact machineInv_of_schedulerFields inv rfl inv.registers.partial_le inv.registers.lastFailOp_le
        inv.registers.lastFailPlane_draw (schedulerInv_passStart legal running draw_phase next_plane rfl rfl rfl)
    · have goes : onPanelOk .draw { s with outstanding := none } = refreshStart s :=
        nextPlane_of_le (Nat.not_lt.mp further)
      rw [goes]
      exact machineInv_of_schedulerFields inv rfl inv.registers.partial_le inv.registers.lastFailOp_le
        inv.registers.lastFailPlane_draw (schedulerInv_waiting legal running nofun nofun rfl rfl)
  | refresh =>
    exact machineInv_of_schedulerFields inv frame inv.registers.partial_le inv.registers.lastFailOp_le
      inv.registers.lastFailPlane_draw (schedulerInv_waiting legal running nofun nofun (plane_zero nofun) rfl)
  | powerOff =>
    exact machineInv_of_schedulerFields inv frame inv.registers.partial_le inv.registers.lastFailOp_le
      inv.registers.lastFailPlane_draw (schedulerInv_toIdle legal rfl)

theorem machineInv_abortCycle {s : State} (inv : MachineInv s) (op : PanelOp) :
    MachineInv (abortCycle op { s with outstanding := none }) := by
  have op_le : (panelOpCode op).toNat ≤ 5 := by cases op <;> decide
  refine machineInv_of_schedulerFields inv rfl inv.registers.partial_le op_le (fun failed => ?_)
    (schedulerInv_toIdle inv.registers.legal rfl)
  by_cases draw : op = .draw
  · rw [draw]; rfl
  · exact absurd (if_neg draw) failed

theorem machineInv_panelAnswer {s : State} (inv : MachineInv s) (a : PanelAnswer) : MachineInv (panelAnswer a s) := by
  obtain ⟨_, nothing⟩ | ⟨op, outstanding, _, ok⟩ | ⟨op, _, _, fail⟩ := panelAnswer_cases a s
  · rw [nothing]; exact inv
  · rw [ok]; exact machineInv_onPanelOk inv outstanding
  · rw [fail]; exact machineInv_abortCycle inv op

/-! ### The host's memory, and a whole step (R4, R81, R265) -/

theorem machineInv_srcWrite {s : State} (inv : MachineInv s) (a : Word) (b : Byte) : MachineInv (srcWrite a b s) := by
  obtain ⟨registers, memory, tile, scheduler⟩ := inv
  exact {
    registers := { registers with }
    memory := { memory with src_wf := Memory.wf_write _ _ _ _ _ memory.src_wf a.isLt }
    tile := fun busy => { tile busy with }
    scheduler := { scheduler with } }

theorem machineInv_hostStep {s t : State} (inv : MachineInv s) (stepped : hostStep s = .next t) : MachineInv t := by
  obtain ⟨u, stepped', effect⟩ := hostStep_effect s
  obtain rfl : u = t := Host.Outcome.next.inj (stepped'.symm.trans stepped)
  obtain rfl | ⟨p, effect⟩ := effect
  · exact inv
  · exact machineInv_transfer (machineInv_of_unread (t := setProgram p s) inv rfl) effect

theorem machineInv_agentStep {s t : State} (inv : MachineInv s) {e : Event} (stepped : agentStep e s = .next t) :
    MachineInv t := by
  cases e with
  | busRead off size =>
    cases stepped
    exact machineInv_transfer (issues := fun _ => False) inv (busRead_effect _ off size s)
  | busWrite off size d =>
    obtain ⟨u, written, effect⟩ := busWrite_effect off size d s
    obtain rfl : u = t := Host.Outcome.next.inj (written.symm.trans stepped)
    exact machineInv_transfer inv effect
  | hostStep => exact machineInv_hostStep inv stepped
  | srcWrite a b => cases stepped; exact machineInv_srcWrite inv a b
  | tileStep => exact machineInv_tileStep inv stepped
  | schedStep => cases stepped; exact machineInv_schedStep inv
  | tick => cases stepped; exact machineInv_tick inv
  | elapse ms => cases stepped; exact machineInv_of_unread inv rfl
  | panelAnswer a => cases stepped; exact machineInv_panelAnswer inv a
  | resetAssert => cases stepped; exact machineInv_assertReset inv
  | resetRelease => cases stepped; exact inv

theorem machineInv_heldStep {s : State} (inv : MachineInv s) (e : Event) : MachineInv (heldStep e s) := by
  have no_reply : MachineInv (noReply s) := machineInv_of_unread inv rfl
  cases e with
  | busRead | busWrite => exact no_reply
  | hostStep =>
    rw [heldStep]
    split_ifs
    · exact inv
    · exact no_reply
  | srcWrite a b => exact machineInv_srcWrite inv a b
  | tileStep | schedStep | tick | elapse | panelAnswer => exact inv
  | resetAssert => exact machineInv_assertReset inv
  | resetRelease => exact machineInv_of_unread inv rfl

theorem machineInv_handle {s t : State} (inv : MachineInv s) {e : Event} (stepped : handle e s = .next t) :
    MachineInv t := by
  cases held : s.resetHeld with
  | true =>
    rw [handle_held e held] at stepped
    cases stepped
    exact machineInv_heldStep inv e
  | false =>
    rw [handle_released e held] at stepped
    exact machineInv_agentStep inv stepped

theorem machineInv_takeEvent {s : State} (inv : MachineInv s) : MachineInv (takeEvent s) := by
  unfold takeEvent
  split <;> exact machineInv_of_unread inv rfl

/-- Settles O52: taking the event off the schedule and handling it both keep the invariant. -/
theorem everyStepKeepsTheInvariant : Obligations.EveryStepKeepsTheInvariant :=
  fun _ _ inv stepped => machineInv_handle (machineInv_takeEvent inv) stepped

theorem completes_agentStep {s : State} (inv : MachineInv s) (e : Event) : Completes (agentStep e s) := by
  cases e with
  | busWrite off size d =>
    obtain ⟨t, written, _⟩ := busWrite_effect off size d s
    exact ⟨t, written⟩
  | hostStep =>
    obtain ⟨t, stepped, _⟩ := hostStep_effect s
    exact ⟨t, stepped⟩
  | tileStep => exact completes_tileStep inv
  | busRead | srcWrite | schedStep | tick | elapse | panelAnswer | resetAssert | resetRelease => exact ⟨_, rfl⟩

theorem completes_handle {s : State} (inv : MachineInv s) (e : Event) : Completes (handle e s) := by
  cases held : s.resetHeld with
  | true => exact ⟨_, handle_held e held⟩
  | false => rw [handle_released e held]; exact completes_agentStep inv e

/-- Settles O54: every event completes; the tile engine's does because of the invariant (`tileStep_pixel`). -/
theorem invariantStepsNeverStop : Obligations.InvariantStepsNeverStop :=
  fun _ inv => completes_handle (machineInv_takeEvent inv) _

end Sys2Proof.Proofs
end

section
/-! PROOFS. What one event can do to the state, and the statements that read it off: the padding bits, a running tile's
latches, DIRTY, RESULT and MODE (10_state.md R25, R29, R43, R49, 20_memory.md R71, 41_dither_engine.md R146). -/

namespace Sys2Proof.Proofs

open Sys2Proof Sys2Proof.Machine Sys2Proof.Claims

/-! ### What one event can do -/

/-- A state with the fields taken from another that events outside the block's own work write: the response, the source
memory, the timer's time and the reset level. -/
def withOutsideFields (s t : State) : State :=
  { s with
    busReply := t.busReply
    src := t.src
    srcChanged := t.srcChanged
    pollElapsed := t.pollElapsed
    resetHeld := t.resetHeld }

/-- What an event can do to the state. -/
inductive StepEffect (e : Event) (s : State) : State → Prop
  | outside {t : State} (frame : t = withOutsideFields s t) : StepEffect e s t
  | transfer {p : List HostOp} {t : State} (effect : TransferEffect (WritesCommand e s) (setProgram p s) t) :
      StepEffect e s t
  | pixel (event : e = .tileStep) (busy : s.busy = true) (in_range : pixelInRange s = true) :
      StepEffect e s (pixelEffect s)
  | completion (event : e = .tileStep) (busy : s.busy = true) : StepEffect e s (completeTile s)
  | ticked : StepEffect e s (tick s)
  | drew : StepEffect e s (schedStep s)
  | answered {a : PanelAnswer} (event : e = .panelAnswer a) : StepEffect e s (panelAnswer a s)
  | reset (event : e = .resetAssert) : StepEffect e s (assertReset s)

theorem agentStep_effect {e : Event} {s t : State} (stepped : agentStep e s = .next t) : StepEffect e s t := by
  cases e with
  | busRead off size => cases stepped; exact .transfer (p := s.program) (busRead_effect _ off size s)
  | busWrite off size d =>
    obtain ⟨u, written, effect⟩ := busWrite_effect off size d s
    obtain rfl : u = t := Host.Outcome.next.inj (written.symm.trans stepped)
    exact .transfer (p := s.program) (effect.mono fun _ same => .inl same)
  | hostStep =>
    obtain ⟨u, stepped', effect⟩ := hostStep_effect s
    obtain rfl : u = t := Host.Outcome.next.inj (stepped'.symm.trans stepped)
    obtain rfl | ⟨p, effect⟩ := effect
    · exact .outside rfl
    · exact .transfer (effect.mono fun _ writes => .inr ⟨rfl, writes⟩)
  | tileStep =>
    obtain ⟨_, rfl⟩ | ⟨busy, _, in_range, _, _, rfl⟩ | ⟨busy, _, rfl⟩ := tileStep_next stepped
    · exact .outside rfl
    · exact .pixel rfl busy in_range
    · exact .completion rfl busy
  | schedStep => cases stepped; exact .drew
  | tick => cases stepped; exact .ticked
  | panelAnswer a => cases stepped; exact .answered rfl
  | resetAssert => cases stepped; exact .reset rfl
  | srcWrite | elapse | resetRelease => cases stepped; exact .outside rfl

theorem heldStep_effect (e : Event) (s : State) : StepEffect e s (heldStep e s) := by
  cases e with
  | hostStep =>
    rw [heldStep]
    split_ifs
    · exact .outside rfl
    · exact .outside rfl
  | resetAssert => exact .reset rfl
  | busRead | busWrite | srcWrite | tileStep | schedStep | tick | elapse | panelAnswer | resetRelease =>
    exact .outside rfl

theorem handle_effect {e : Event} {s t : State} (stepped : handle e s = .next t) : StepEffect e s t := by
  cases held : s.resetHeld with
  | true =>
    rw [handle_held e held] at stepped
    cases stepped
    exact heldStep_effect e s
  | false =>
    rw [handle_released e held] at stepped
    exact agentStep_effect stepped

/-! ### Padding bits (R71) -/

/-- Two pixels of the padded rows share a raster bit only if they are the same pixel. -/
theorem pixel_place_inj {p : Params} {x y x' y' : Nat} (hx : x < 8 * p.bytesPerRow) (hx' : x' < 8 * p.bytesPerRow)
    (same_byte : byteIndex p x' y' = byteIndex p x y) (same_bit : bitIndex x' = bitIndex x) : x' = x ∧ y' = y := by
  have col : x / 8 < p.bytesPerRow := by omega
  have col' : x' / 8 < p.bytesPerRow := by omega
  have row_of (y c : Nat) (hc : c < p.bytesPerRow) : (y * p.bytesPerRow + c) / p.bytesPerRow = y := by
    rw [Nat.mul_comm, Nat.mul_add_div (Nat.zero_lt_of_lt hc), Nat.div_eq_of_lt hc, Nat.add_zero]
  unfold byteIndex at same_byte
  have same_row : y' = y := by rw [← row_of y' _ col', same_byte, row_of y _ col]
  subst same_row
  unfold bitIndex at same_bit
  omega

theorem width_le_padded (p : Params) : p.screenW ≤ 8 * p.bytesPerRow := by
  unfold Params.bytesPerRow
  omega

theorem rasterPixel_pixelWrite {s : State} {n : Nat} (h : Memory.wf rasterUnlisted n s.raster) {x y x' y' : Nat}
    (dark : Bool) (hx : x < 8 * s.cfg.bytesPerRow) (hx' : x' < 8 * s.cfg.bytesPerRow) :
    rasterPixel (pixelWrite x y dark s) x' y' = if x' = x ∧ y' = y then dark else rasterPixel s x' y' := by
  have bit_lt : bitIndex x' < 8 := by unfold bitIndex; omega
  have bits := rasterBit_pixelWrite h x y dark (byteIndex s.cfg x' y') bit_lt
  refine bits.trans ?_
  by_cases same : x' = x ∧ y' = y
  · obtain ⟨rfl, rfl⟩ := same
    rw [if_pos ⟨rfl, rfl⟩, if_pos ⟨rfl, rfl⟩]
  · rw [if_neg same, if_neg fun place => same (pixel_place_inj hx hx' place.1 place.2)]
    rfl

/-- The raster after a pixel step is that of its pixel write. -/
theorem rasterPixel_pixelEffect (s : State) (x y : Nat) :
    rasterPixel (pixelEffect s) x y = rasterPixel (pixelWrite (pixelX s) (pixelY s)
      (ditherPixel s.algo s.cfg (readLuma s).1 (pixelX s) (pixelY s) s.curR s.curC s.acc).1 s) x y := by
  simp only [rasterPixel, rasterRead, pixelEffect_raster, pixelEffect_cfg]
  rfl

theorem paddingLight_pixelEffect {s : State} (memory : MemoryInv s) (in_range : pixelInRange s = true)
    (light : PaddingLight s) : PaddingLight (pixelEffect s) := by
  intro x y past inside below
  rw [pixelEffect_cfg] at past inside below
  obtain ⟨hx, _⟩ := (pixelInRange_iff s).mp in_range
  rw [rasterPixel_pixelEffect, rasterPixel_pixelWrite memory.raster_wf _ (hx.trans_le (width_le_padded _)) inside,
    if_neg fun ⟨same, _⟩ => Nat.not_le.mpr hx (same ▸ past)]
  exact light x y past inside below

theorem paddingLight_of_eq {s t : State} (light : PaddingLight s) (cfg : t.cfg = s.cfg) (raster : t.raster = s.raster) :
    PaddingLight t := by
  simpa only [PaddingLight, rasterPixel, rasterRead, cfg, raster] using light

theorem paddingLight_handle {e : Event} {s t : State} (memory : MemoryInv s) (light : PaddingLight s)
    (stepped : handle e s = .next t) : PaddingLight t := by
  have of_scheduler {u : State} (writes : SchedulerWrites s u) : PaddingLight u :=
    paddingLight_of_eq light (congrArg State.cfg writes.frame :) (congrArg State.raster writes.frame :)
  cases handle_effect stepped with
  | outside frame => exact paddingLight_of_eq light (congrArg State.cfg frame :) (congrArg State.raster frame :)
  | transfer effect =>
    have frame := transferEffect_frame effect
    exact paddingLight_of_eq light (congrArg State.cfg frame :) (congrArg State.raster frame :)
  | pixel _ _ in_range => exact paddingLight_pixelEffect memory in_range light
  | completion => exact paddingLight_of_eq light rfl rfl
  | ticked => exact of_scheduler (schedulerWrites_tick s)
  | drew => exact of_scheduler (schedulerWrites_schedStep s)
  | answered => exact of_scheduler (schedulerWrites_panelAnswer _ s)
  | reset =>
    intro x y _ _ _
    rw [rasterPixel, rasterRead_of_raster_nil rfl]
    exact BitVec.getLsbD_zero

/-- Settles O55. Only a pixel step and reset write the raster; the pixel lies in the screen, so its bit is no padding. -/
theorem everyStepKeepsPaddingLight : Obligations.EveryStepKeepsPaddingLight := by
  intro s t inv light stepped
  have taken : PaddingLight (takeEvent s) := by
    unfold takeEvent
    split <;> exact paddingLight_of_eq light rfl rfl
  exact paddingLight_handle (machineInv_takeEvent inv).memory taken stepped

/-! ### A running tile (R44, R146, R271) -/

/-- The mode, the allocation and what a tile has latched. -/
def tileLatches (s : State) :=
  (s.mode, s.lastMode, s.accRows, s.accWidth, s.lx, s.ly, s.lw, s.lh, s.lsrc, s.lfmt, s.lbpp, s.algo)

/-- While a tile runs no command has its effect, and no register write touches the latches. -/
theorem tileLatches_transfer {issues : Word → Prop} {s t : State} (busy : s.busy = true)
    (effect : TransferEffect issues s t) : tileLatches t = tileLatches s := by
  cases effect with
  | answered r => rfl
  | @written r v u stored =>
    cases r with
    | tileOrigin | tileSize | srcAddr | err | intStatus | intEnable | threshold => cases stored; rfl
    | id | geometry | caps | cmd | result | mode | status | partialCount | accAlloc | fallbackCount | panelFailCount
    | lastPanelFail => cases stored
  | rejected e => rfl
  | ran _ ready _ _ => exact absurd (ready.symm.trans busy) nofun

/-- Settles O56. -/
theorem runningTileIsNotDisturbed : Obligations.RunningTileIsNotDisturbed := by
  intro s t e busy stepped still_busy
  suffices latches : tileLatches t = tileLatches s by simpa only [tileLatches, Prod.mk.injEq] using latches
  cases handle_effect stepped with
  | outside frame => rw [frame]; rfl
  | @transfer p _ effect => exact tileLatches_transfer (s := setProgram p s) busy effect
  | pixel => simp only [tileLatches, pixelEffect_mode, pixelEffect_lastMode, pixelEffect_accRows, pixelEffect_accWidth,
      pixelEffect_lx, pixelEffect_ly, pixelEffect_lw, pixelEffect_lh, pixelEffect_lsrc, pixelEffect_lfmt,
      pixelEffect_lbpp, pixelEffect_algo]
  | completion => exact absurd still_busy nofun
  | ticked => rw [(schedulerWrites_tick s).frame]; rfl
  | drew => rw [(schedulerWrites_schedStep s).frame]; rfl
  | answered => rw [(schedulerWrites_panelAnswer _ s).frame]; rfl
  | reset => exact absurd still_busy nofun

/-! ### DIRTY (R43, R49) -/

theorem dirty_tick (s : State) : (tick s).dirty = s.dirty := by
  obtain ⟨_, _, starts⟩ | ⟨_, other⟩ := tick_cases s
  · rw [starts]; rfl
  · rw [other]

theorem dirty_schedStep (s : State) : (schedStep s).dirty = s.dirty := by
  unfold schedStep issueDrawWhenRead readDrawByte
  split_ifs <;> rfl

/-- Of the panel's answers only the OK to POWER_OFF clears DIRTY (R211, R213). -/
theorem dirty_panelAnswer {a : PanelAnswer} {s : State} (changed : (panelAnswer a s).dirty ≠ s.dirty) :
    a = .ok ∧ s.outstanding = some .powerOff ∧ (panelAnswer a s).dirty = false := by
  obtain ⟨_, nothing⟩ | ⟨op, outstanding, rfl, ok⟩ | ⟨op, _, _, fail⟩ := panelAnswer_cases a s
  · exact absurd (by rw [nothing]) changed
  · rw [ok] at changed ⊢
    cases op with
    | powerOff => exact ⟨rfl, outstanding, rfl⟩
    | powerOn | selectLut | refresh => exact absurd rfl changed
    | draw =>
      refine absurd ?_ changed
      unfold onPanelOk nextPlane
      dsimp only
      split_ifs <;> rfl
  · rw [fail] at changed
    exact absurd rfl changed

/-- Settles O57. -/
theorem dirtyChangesOnlyByTileAndCycle : Obligations.DirtyChangesOnlyByTileAndCycle := by
  intro s t e stepped changed
  cases handle_effect stepped with
  | outside frame => exact absurd (congrArg State.dirty frame) changed
  | transfer effect => exact absurd (congrArg State.dirty (transferEffect_frame effect)) changed
  | pixel => exact absurd (pixelEffect_dirty s) changed
  | completion event => exact .inl ⟨event, rfl⟩
  | ticked => exact absurd (dirty_tick s) changed
  | drew => exact absurd (dirty_schedStep s) changed
  | answered event =>
    obtain ⟨rfl, outstanding, cleared⟩ := dirty_panelAnswer changed
    exact .inr (.inl ⟨event, outstanding, cleared⟩)
  | reset event => exact .inr (.inr ⟨event, rfl⟩)

/-! ### RESULT and MODE (R25, R29) -/

theorem result_setModeEffect (m : DitherMode) (s : State) : (setModeEffect m s).result = s.result := by
  obtain ⟨_, unchanged⟩ | ⟨_, changed⟩ := setModeEffect_cases m s
  · rw [unchanged]
  · rw [changed]

theorem result_acceptTile (fmt : Format) (bpp : BitVec 3) (s : State) : (acceptTile fmt bpp s).result = s.result := by
  obtain ⟨rows, width, count, causes, frame⟩ := chooseAlgo_frame (tileW s).toNat s
  simp only [acceptTile, frame, latchTile_result]

theorem mode_acceptTile (fmt : Format) (bpp : BitVec 3) (s : State) :
    (acceptTile fmt bpp s).mode = s.mode ∧ (acceptTile fmt bpp s).lastMode = s.lastMode := by
  obtain ⟨rows, width, count, causes, frame⟩ := chooseAlgo_frame (tileW s).toNat s
  simp only [acceptTile, frame, latchTile_mode, latchTile_lastMode, and_self]

theorem result_commandEffect {i : Instr} {s : State} (changed : (commandEffect i s).result ≠ s.result) :
    i = .getMode ∨ i = .isEnabled ∨ ∃ fmt b0 b1, i = .sampleLuma fmt b0 b1 := by
  cases i with
  | getMode => exact .inl rfl
  | isEnabled => exact .inr (.inl rfl)
  | sampleLuma fmt b0 b1 => exact .inr (.inr ⟨fmt, b0, b1, rfl⟩)
  | setMode m => exact absurd (result_setModeEffect m s) changed
  | setEnabled e => exact absurd (result_setModeEffect _ s) changed
  | freeBuffers => exact absurd rfl changed
  | convertArea fmt bpp => exact absurd (result_acceptTile fmt bpp s) changed

theorem mode_commandEffect {i : Instr} {s : State}
    (changed : (commandEffect i s).mode ≠ s.mode ∨ (commandEffect i s).lastMode ≠ s.lastMode) :
    (∃ m, i = .setMode m) ∨ ∃ b, i = .setEnabled b := by
  cases i with
  | setMode m => exact .inl ⟨m, rfl⟩
  | setEnabled e => exact .inr ⟨e, rfl⟩
  | getMode | isEnabled | freeBuffers | sampleLuma => exact (changed.elim (absurd rfl) (absurd rfl) :)
  | convertArea fmt bpp =>
    obtain ⟨mode, lastMode⟩ := mode_acceptTile fmt bpp s
    exact (changed.elim (absurd mode) (absurd lastMode) :)

/-- RESULT, MODE and LAST_MODE. -/
def answers (s : State) := (s.result, s.mode, s.lastMode)

theorem answers_regWrite {r : Reg} {v : Word} {s u : State} (stored : regWrite r v s = some u) :
    answers u = answers s := by
  cases r with
  | tileOrigin | tileSize | srcAddr | err | intStatus | intEnable | threshold => cases stored; rfl
  | id | geometry | caps | cmd | result | mode | status | partialCount | accAlloc | fallbackCount | panelFailCount
  | lastPanelFail => cases stored

/-- Apart from reset, an event leaves RESULT, MODE and LAST_MODE, or it runs a command while no tile runs. -/
theorem answers_step {e : Event} {s t : State} (stepped : handle e s = .next t) (no_reset : e ≠ .resetAssert) :
    answers t = answers s ∨ ∃ w i p, WritesCommand e s w ∧ s.busy = false ∧ decode w = .ok i ∧
      t = commandEffect i (replyWrite (setProgram p s)) := by
  cases handle_effect stepped with
  | outside frame => rw [frame]; exact .inl rfl
  | @transfer p _ effect =>
    cases effect with
    | answered r => exact .inl rfl
    | written stored => exact .inl (answers_regWrite stored :)
    | rejected e => exact .inl rfl
    | ran issued ready decoded _ => exact .inr ⟨_, _, p, issued, ready, decoded, rfl⟩
  | pixel => exact .inl (by simp only [answers, pixelEffect_result, pixelEffect_mode, pixelEffect_lastMode])
  | completion => exact .inl rfl
  | ticked => rw [(schedulerWrites_tick s).frame]; exact .inl rfl
  | drew => rw [(schedulerWrites_schedStep s).frame]; exact .inl rfl
  | answered => rw [(schedulerWrites_panelAnswer _ s).frame]; exact .inl rfl
  | reset event => exact absurd event no_reset

/-- Settles O58: the event runs a command, and the field that changed tells which. -/
theorem resultAndModeHaveFewWriters : Obligations.ResultAndModeHaveFewWriters := by
  intro s t e stepped no_reset
  obtain same | ⟨w, i, p, writes, ready, decoded, rfl⟩ := answers_step stepped no_reset
  · simp only [answers, Prod.mk.injEq] at same
    obtain ⟨result, mode, lastMode⟩ := same
    exact ⟨fun changed => absurd result changed,
      fun changed => (changed.elim (absurd mode) (absurd lastMode) :)⟩
  · exact ⟨fun changed => ⟨w, i, writes, ready, decoded, result_commandEffect changed⟩,
      fun changed => ⟨w, i, writes, ready, decoded, mode_commandEffect changed⟩⟩

end Sys2Proof.Proofs
end

section
/-! PROOFS. The pixel of an error-diffusion algorithm (41_dither_engine.md R163 to R169): decision and error, the cells
after it, and the Stucki table. -/

namespace Sys2Proof.Proofs

open Sys2Proof Sys2Proof.Machine Sys2Proof.Claims

/-! ### Quantisation (R163) -/

theorem quantDark_correctedLuma (l : Byte) (e : Int) :
    quantDark (correctedLuma l e) = decide (correctedOf l e < 128) := rfl

/-- The corrected luma lies in 0 to 255, so its distance to the nearer of the two is at most 127. -/
theorem errOf_bounds (l : Byte) (e : Int) : -127 ≤ errOf l e ∧ errOf l e ≤ 127 := by
  have low : 0 ≤ correctedOf l e := by unfold correctedOf; omega
  have high : correctedOf l e ≤ 255 := by unfold correctedOf; omega
  unfold errOf
  split_ifs <;> omega

/-- Settles O36. -/
theorem quantisationErrorIsBounded : Obligations.QuantisationErrorIsBounded :=
  fun l e => ⟨correctedLuma_eq l e, quantDark_correctedLuma l e, quantError_correctedLuma l e, errOf_bounds l e⟩

/-! ### One pixel of either kernel (R164 to R168) -/

/-- The rows of the ring hold every cell that a pixel at column c touches. -/
def HoldsPixel (a : DitherMode) (c : Nat) (f : AccFile) : Prop :=
  ∀ j, j < modeRows a → c + modePad a < (f.row j).length

theorem modeRows_pos {a : DitherMode} (h : a = .ed2 ∨ a = .ed3) : 0 < modeRows a := by
  rcases h with rfl | rfl <;> decide

theorem modeRows_le (a : DitherMode) : modeRows a ≤ 3 := by cases a <;> decide

/-- A kernel reaches no further right than PAD and no further down than ROWS (R125). -/
theorem kernel_reach (a : DitherMode) : ∀ n ∈ modeKernel a, n.di ≤ modePad a ∧ n.dy < modeRows a := by
  cases a <;> decide

theorem kernel_inside {a : DitherMode} {c : Nat} {f : AccFile} (h : a = .ed2 ∨ a = .ed3) (holds : HoldsPixel a c f)
    (r : Nat) : ∀ n ∈ modeKernel a, c + n.di < (f.row ((r + n.dy) % modeRows a)).length := fun n hn =>
  (Nat.add_le_add_left (kernel_reach a n hn).1 c).trans_lt (holds _ (Nat.mod_lt _ (modeRows_pos h)))

/-- The error of a pixel, from the cell that it reads (R163). -/
def pixelError (a : DitherMode) (l : Byte) (r c : Nat) (f : AccFile) : Int :=
  errOf l (f.cell (r % modeRows a) (c + modeOffset a))

section
variable {a : DitherMode} (h : a = .ed2 ∨ a = .ed3) (p : Params) (l : Byte) (x y r c : Nat) (f : AccFile)
include h

theorem ditherPixel_dark : (ditherPixel a p l x y r c f).1 =
    decide (correctedOf l (f.cell (r % modeRows a) (c + modeOffset a)) < 128) := by
  rcases h with rfl | rfl <;> rfl

theorem ditherPixel_acc : (ditherPixel a p l x y r c f).2 =
    (modeKernel a).foldl (contribute (modeRows a) (modeShift a) r c (pixelError a l r c f)) f := by
  have err := quantError_correctedLuma l (f.cell (r % modeRows a) (c + modeOffset a))
  rcases h with rfl | rfl
  · exact congrArg (diffuse .ed2 r c · f) err
  · exact congrArg (diffuse .ed3 r c · f) err

/-- Every cell after a pixel: the wrapped sum with the kernel's contributions there. -/
theorem cell_ditherPixel (holds : HoldsPixel a c f) {j : Nat} (hj : j < 3) (i : Nat) :
    (ditherPixel a p l x y r c f).2.cell j i =
      wrap (f.cell j i +
        ((modeKernel a).map (contribution (modeRows a) (modeShift a) r c (pixelError a l r c f) j i)).sum) := by
  rw [ditherPixel_acc h, cell_foldl_contribute (modeRows_pos h) (modeRows_le a) hj _ _ _ _ (kernel_inside h holds r)]

end

/-! ### The Stucki pixel (R165) -/

/-- A neighbour lands in the cell that lies as far below and right of the pixel's own cell as the table says. -/
theorem lands_stucki_iff (r : Nat) {c j i dy di : Nat} (hj : j < 3) (hdy : dy < 3) :
    (j = (r + dy) % 3 ∧ i = c + di) ↔ ((j + 3 - r % 3) % 3 = dy ∧ (i : Int) - c - 2 = di - 2) := by
  omega

/-- The twelve neighbours add up to the one weight that R165's table gives the cell. -/
theorem sum_contribution_stucki {j : Nat} (hj : j < 3) (r c i : Nat) (err : Int) :
    (stucki.map (contribution 3 6 r c err j i)).sum =
      err * stuckiWeight ((j + 3 - r % 3) % 3) ((i : Int) - c - 2) / 64 := by
  have down_lt : (j + 3 - r % 3) % 3 < 3 := Nat.mod_lt _ (by decide)
  simp only [stucki, contribution, floorShift, lands_stucki_iff r hj (by decide : 0 < 3),
    lands_stucki_iff r hj (by decide : 1 < 3), lands_stucki_iff r hj (by decide : 2 < 3), List.map_cons, List.map_nil,
    List.sum_cons, List.sum_nil, stuckiWeight]
  generalize (j + 3 - r % 3) % 3 = down at down_lt ⊢
  generalize (i : Int) - c - 2 = right
  by_cases near : -2 ≤ right ∧ right ≤ 2
  · obtain ⟨left_end, right_end⟩ := near
    interval_cases down <;> interval_cases right <;> simp
  · have far (k : Int) (hk : -2 ≤ k ∧ k ≤ 2) : right ≠ k := by rintro rfl; exact near hk
    have m2 := far (-2) (by decide)
    have m1 := far (-1) (by decide)
    have z0 := far 0 (by decide)
    have p1 := far 1 (by decide)
    have p2 := far 2 (by decide)
    interval_cases down <;> simp [m2, m1, z0, p1, p2]

/-- Settles O38, as O37: the cells are those of `cell_ditherPixel`, with the kernel's sum read off R165's table. -/
theorem stuckiSpreadsError : Obligations.StuckiSpreadsError := by
  rintro p l x y r c f h0 h1 h2 e rfl
  have holds : HoldsPixel .ed3 c f := by
    intro j hj
    have hj : j < 3 := hj
    interval_cases j
    exacts [h0, h1, h2]
  refine ⟨ditherPixel_dark (.inr rfl) p l x y r c f, fun j i hj => ?_⟩
  rw [cell_ditherPixel (.inr rfl) p l x y r c f holds hj]
  exact congrArg (fun v => wrap (f.cell j i + v)) (sum_contribution_stucki hj r c i _)

/-! ### The bound on a pixel's contributions (R169) -/

/-- The bound that one unit of kernel weight puts on a cell: the weights of a kernel are over 16 or over 64, and the
bound of a whole kernel is 128 (R169). -/
def weightUnit : DitherMode → Int
  | .ed3 => 2
  | _ => 8

/-- The weights of a kernel are nonnegative and add up to the unit over which it divides (R164, R165). -/
theorem kernel_weights (a : DitherMode) (n : KernelEntry) (hn : n ∈ modeKernel a) : 0 ≤ n.k ∧ n.k ≤ 12 := by
  revert n
  cases a <;> decide

theorem kernel_total {a : DitherMode} (h : a = .ed2 ∨ a = .ed3) :
    weightUnit a * ((modeKernel a).map KernelEntry.k).sum = 128 := by
  rcases h with rfl | rfl <;> decide

/-- One contribution of a bounded error is at most the unit times its weight, in either direction. -/
theorem floorShift_bounds {a : DitherMode} (h : a = .ed2 ∨ a = .ed3) {err k : Int} (err_bounds : -127 ≤ err ∧ err ≤ 127)
    (k_bounds : 0 ≤ k ∧ k ≤ 12) :
    -(weightUnit a * k) ≤ floorShift (err * k) (modeShift a) ∧ floorShift (err * k) (modeShift a) ≤ weightUnit a * k := by
  obtain ⟨low, high⟩ := err_bounds
  obtain ⟨k_pos, k_le⟩ := k_bounds
  have product_low : -127 * k ≤ err * k := Int.mul_le_mul_of_nonneg_right low k_pos
  have product_high : err * k ≤ 127 * k := Int.mul_le_mul_of_nonneg_right high k_pos
  generalize err * k = product at *
  rcases h with rfl | rfl
  · simp only [weightUnit, floorShift, modeShift]
    omega
  · simp only [weightUnit, floorShift, modeShift]
    omega

end Sys2Proof.Proofs
end

section
/-! PROOFS. The pixel step and a tile's run (41_dither_engine.md R150, 42_raster_compositor.md R181, R182,
70_reset_and_hazards.md R278): one step in full, the run pixel by pixel, and what a whole tile leaves alone. -/

namespace Sys2Proof.Proofs

open Sys2Proof Sys2Proof.Machine Sys2Proof.Claims

/-! ### The source reads of a pixel (R67 to R69) -/

/-- A pixel whose bytes the host has not changed has the luma of the bytes left in the source memory. -/
theorem toNat_readLuma {s : State} (byte0 : pixelAddress s ∉ s.srcChanged)
    (byte1 : s.lfmt = .rgb565 → pixelAddress s + 1 ∉ s.srcChanged) :
    (readLuma s).1.toNat = tileLuma s s.curR s.curC := by
  have read0 : srcRead (pixAddr s) s = (sourceByte s (pixelAddress s), s) := srcRead_unchanged byte0
  rw [readLuma, read0]
  split_ifs with rgb565
  · have read1 : srcRead (pixAddr s + 1) s = (sourceByte s (pixelAddress s + 1), s) := srcRead_unchanged (byte1 rgb565)
    rw [read1]
    exact toNat_luma _ _ _
  · rw [toNat_luma, tileLuma]
    cases format : s.lfmt with
    | l8 | rgb332 | unsupported => rfl
    | rgb565 => exact absurd format rgb565

/-! ### The pixel step in full (R150) -/

/-- The decision of the cursor's pixel and the accumulators after its contributions (R150). -/
def cursorPixel (s : State) : Bool × AccFile :=
  ditherPixel s.algo s.cfg (readLuma s).1 (pixelX s) (pixelY s) s.curR s.curC s.acc

/-- A state with the fields that the tile engine writes taken from another. -/
def withTileFields (s t : State) : State :=
  { s with
    raster := t.raster
    acc := t.acc
    freeCount := t.freeCount
    curC := t.curC
    curR := t.curR
    busy := t.busy
    dirty := t.dirty
    intStatus := t.intStatus }

theorem pixelEffect_eq (s : State) : ∃ n,
    pixelEffect s =
      { s with
        raster := (pixelEffect s).raster
        acc := (pixelEffect s).acc
        freeCount := n
        curC := if s.curC + 1 = s.lw.toNat then 0 else s.curC + 1
        curR := if s.curC + 1 = s.lw.toNat then s.curR + 1 else s.curR } := by
  obtain ⟨n, e⟩ := pixelEffect_state s
  refine ⟨n, ?_⟩
  generalize pixelEffect s = u at e ⊢
  subst e
  rfl

theorem pixelEffect_frame (s : State) : pixelEffect s = withTileFields s (pixelEffect s) := by
  obtain ⟨n, e⟩ := pixelEffect_state s
  generalize pixelEffect s = u at e ⊢
  subst e
  rfl

/-- Each raster bit after a pixel step: the cursor's pixel is decided, every other bit stays (R181). -/
theorem rasterBit_pixelEffect {s : State} (memory : MemoryInv s) (i : Nat) {b : Nat} (hb : b < 8) :
    rasterBit (pixelEffect s) i b =
      if i = byteIndex s.cfg (pixelX s) (pixelY s) ∧ b = bitIndex (pixelX s) then (cursorPixel s).1
      else rasterBit s i b := by
  rw [← rasterBit_pixelWrite memory.raster_wf _ _ _ _ hb]
  simp only [rasterBit, rasterRead, pixelEffect_raster]
  rfl

/-- A stateless algorithm leaves the accumulators, and no row of theirs starts (R161, R162). -/
theorem pixelEffect_acc_stateless {s : State} (h : s.algo = .disabled ∨ s.algo = .ordered) :
    (pixelEffect s).acc = s.acc := by
  have no_start : ¬startsRow s := by
    rintro ⟨_, diffusing, _⟩
    rcases h with h | h <;> rw [h] at diffusing <;> cases diffusing
  rw [pixelEffect_acc, if_neg no_start]
  rcases h with h | h <;> rw [h] <;> rfl

theorem pixelEffect_acc_diffusing {s : State} (h : s.algo = .ed2 ∨ s.algo = .ed3) :
    (pixelEffect s).acc =
      if s.curC + 1 = s.lw.toNat ∧ s.curR + 1 < s.lh.toNat then
        rowStart s.algo s.lw.toNat (s.curR + 1) (cursorPixel s).2
      else (cursorPixel s).2 := by
  have diffusing : diffuses s.algo = true := by rcases h with h | h <;> rw [h] <;> rfl
  rw [pixelEffect_acc]
  simp only [startsRow, rowDone, diffusing, true_and]
  rfl

/-- Settles O30. Under the invariant the step is `pixelEffect` (`tileStep_pixel`), and its raster, its accumulators and
its luma are those of the lemmas above. -/
theorem pixelStepWritesCursorPixel : Obligations.PixelStepWritesCursorPixel := by
  intro s inv busy wide row
  have wide : 0 < s.lw.toNat := Nat.pos_of_ne_zero fun zero => wide (BitVec.eq_of_toNat_eq zero)
  have left : pixelLeft s = true := (pixelLeft_iff s).mpr ⟨wide, row⟩
  obtain ⟨n, effect⟩ := pixelEffect_eq s
  refine ⟨(pixelEffect s).raster, (pixelEffect s).acc, (cursorPixel s).2, n, (cursorPixel s).1, (readLuma s).1,
    ?_, fun i b hb => ?_, toNat_readLuma, fun disabled => ⟨?_, pixelEffect_acc_stateless (.inl disabled)⟩,
    fun ordered => ⟨?_, pixelEffect_acc_stateless (.inr ordered)⟩,
    fun diffusing => ⟨rfl, pixelEffect_acc_diffusing diffusing⟩⟩
  · exact (tileStep_pixel inv busy left).trans (congrArg _ effect)
  · exact rasterBit_pixelEffect inv.memory i hb
  · rw [cursorPixel, disabled]; rfl
  · rw [cursorPixel, ordered]; rfl

/-! ### The tile engine alone (R150, R278) -/

/-- One more step of a run is a step from its last state. -/
theorem tileRun_succ {n : Nat} {s u : State} (run : tileRun n s = .next u) : tileRun (n + 1) s = tileStep u := by
  induction n generalizing s with
  | zero =>
    cases run
    rw [tileRun]
    generalize tileStep u = outcome
    cases outcome <;> rfl
  | succ n ih =>
    rw [tileRun] at run ⊢
    cases stepped : tileStep s with
    | next v => rw [stepped] at run; exact ih run
    | fault r => rw [stepped] at run; cases run
    | refused r => rw [stepped] at run; cases run

/-- What every step of the tile engine keeps holds after any number of its steps. -/
theorem tileRun_keeps {P : State → Prop} (keeps : ∀ u v, P u → tileStep u = .next v → P v) {n : Nat} {s t : State}
    (start : P s) (run : tileRun n s = .next t) : P t := by
  induction n generalizing s with
  | zero => cases run; exact start
  | succ n ih =>
    rw [tileRun] at run
    cases stepped : tileStep s with
    | next v => rw [stepped] at run; exact ih (keeps s v start stepped) run
    | fault r => rw [stepped] at run; cases run
    | refused r => rw [stepped] at run; cases run

/-! ### Outside the tile's rectangle (R182) -/

/-- Bit b of raster byte i is the pixel of a column and row of the latched rectangle. -/
def InTile (s : State) (i b : Nat) : Prop :=
  ∃ x y, s.lx.toNat ≤ x ∧ x < s.lx.toNat + s.lw.toNat ∧ s.ly.toNat ≤ y ∧ y < s.ly.toNat + s.lh.toNat ∧
    IsPixel s.cfg i b x y

theorem cursor_inTile {s : State} (tile : RunningTile s) (left : pixelLeft s = true) :
    InTile s (byteIndex s.cfg (pixelX s) (pixelY s)) (bitIndex (pixelX s)) := by
  obtain ⟨column, row⟩ := curC_lt tile left
  exact ⟨pixelX s, pixelY s, Nat.le_add_right _ _, Nat.add_lt_add_left column _, Nat.le_add_right _ _,
    Nat.add_lt_add_left row _, rfl, rfl⟩

/-- What a run of the tile engine has done by state u: it has written the engine's fields only, and no bit outside the
rectangle. -/
structure InsideTile (s u : State) : Prop where
  inv : MachineInv u
  frame : u = withTileFields s u
  outside : ∀ i b, b < 8 → ¬InTile s i b → rasterBit u i b = rasterBit s i b

theorem insideTile_tileStep {s u v : State} (inside : InsideTile s u) (stepped : tileStep u = .next v) :
    InsideTile s v := by
  obtain ⟨inv, frame, outside⟩ := inside
  have inv' := machineInv_tileStep inv stepped
  obtain ⟨_, rfl⟩ | ⟨busy, left, _, _, _, rfl⟩ | ⟨_, _, rfl⟩ := tileStep_next stepped
  · exact ⟨inv, frame, outside⟩
  · refine ⟨inv', ?_, fun i b hb out => ?_⟩
    · rw [pixelEffect_frame]
      exact (congrArg (withTileFields · (pixelEffect u)) frame :)
    · have cursor := cursor_inTile (inv.tile busy) left
      rw [rasterBit_pixelEffect inv.memory i hb, if_neg, outside i b hb out]
      rintro ⟨rfl, rfl⟩
      rw [frame] at cursor
      rw [frame] at out
      exact out cursor
  · exact ⟨inv', congrArg completeTile frame, outside⟩

/-- Settles O32: each step keeps to the rectangle, so the run does. -/
theorem tileLeavesRestOfRasterAlone : Obligations.TileLeavesRestOfRasterAlone := by
  intro s t n inv _ run
  have inside : InsideTile s t :=
    tileRun_keeps (fun _ _ => insideTile_tileStep) ⟨inv, rfl, fun _ _ _ _ => rfl⟩ run
  exact inside.outside

/-! ### A tile's run, pixel by pixel (R150, R278) -/

/-- The state after `n` pixels of the tile at `s`: the cursor stands at pixel n in raster order, and only the engine's
fields have changed. -/
structure AfterPixels (s : State) (n : Nat) (u : State) : Prop where
  inv : MachineInv u
  busy : u.busy = true
  frame : u = withTileFields s u
  position : u.curR * s.lw.toNat + u.curC = n

section
variable {s u : State} {n : Nat}

theorem AfterPixels.lw_eq (after : AfterPixels s n u) : u.lw = s.lw := (congrArg State.lw after.frame :)

theorem AfterPixels.lh_eq (after : AfterPixels s n u) : u.lh = s.lh := (congrArg State.lh after.frame :)

/-- Before the last pixel one is left. -/
theorem AfterPixels.left (after : AfterPixels s n u) (before_end : n < s.lw.toNat * s.lh.toNat) :
    pixelLeft u = true := by
  rw [pixelLeft_iff, after.lw_eq, after.lh_eq]
  refine ⟨Nat.pos_of_ne_zero fun zero => ?_, Nat.lt_of_not_le fun past => ?_⟩
  · simp [zero] at before_end
  · have rows := Nat.mul_le_mul_right s.lw.toNat past
    have position := after.position
    rw [Nat.mul_comm] at before_end
    omega

/-- After the last pixel none is left. -/
theorem AfterPixels.done (after : AfterPixels s (s.lw.toNat * s.lh.toNat) u) : pixelLeft u = false := by
  rw [← Bool.not_eq_true]
  intro left
  obtain ⟨column, row⟩ := curC_lt (after.inv.tile after.busy) left
  rw [after.lw_eq] at column
  rw [after.lh_eq] at row
  have rows : (u.curR + 1) * s.lw.toNat ≤ s.lh.toNat * s.lw.toNat := Nat.mul_le_mul_right _ row
  have position := after.position
  rw [Nat.succ_mul, Nat.mul_comm s.lh.toNat] at rows
  omega

theorem AfterPixels.pixel (after : AfterPixels s n u) (left : pixelLeft u = true) :
    AfterPixels s (n + 1) (pixelEffect u) where
  inv := machineInv_pixelEffect after.inv after.busy left
  busy := (pixelEffect_busy u).trans after.busy
  frame := by
    rw [pixelEffect_frame]
    exact (congrArg (withTileFields · (pixelEffect u)) after.frame :)
  position := by
    have position := after.position
    rw [pixelEffect_curR, pixelEffect_curC, after.lw_eq]
    split_ifs with last
    · rw [Nat.succ_mul]; omega
    · omega

end

/-- What holds at the first pixel and is kept by every pixel step holds after each number of pixels, and the run gets
there without a stop. -/
theorem tileRun_pixels {s : State} (inv : MachineInv s) (start : AtTileStart s) {Q : Nat → State → Prop} (first : Q 0 s)
    (keeps : ∀ n u, AfterPixels s n u → pixelLeft u = true → Q n u → Q (n + 1) (pixelEffect u)) {n : Nat}
    (le : n ≤ s.lw.toNat * s.lh.toNat) : ∃ u, tileRun n s = .next u ∧ AfterPixels s n u ∧ Q n u := by
  induction n with
  | zero =>
    obtain ⟨busy, row, column, _⟩ := start
    exact ⟨s, rfl, ⟨inv, busy, rfl, by simp [row, column]⟩, first⟩
  | succ n ih =>
    obtain ⟨u, run, after, holds⟩ := ih (Nat.le_of_succ_le le)
    have left := after.left le
    exact ⟨pixelEffect u, (tileRun_succ run).trans (tileStep_pixel after.inv after.busy left), after.pixel left,
      keeps n u after left holds⟩

/-- A whole tile's run ends in the completion of the state after its last pixel. -/
theorem tileRun_whole {s : State} (inv : MachineInv s) (start : AtTileStart s) {Q : Nat → State → Prop} (first : Q 0 s)
    (keeps : ∀ n u, AfterPixels s n u → pixelLeft u = true → Q n u → Q (n + 1) (pixelEffect u)) :
    ∃ u, tileRun (s.lw.toNat * s.lh.toNat + 1) s = .next (completeTile u) ∧
      AfterPixels s (s.lw.toNat * s.lh.toNat) u ∧ Q (s.lw.toNat * s.lh.toNat) u := by
  obtain ⟨u, run, after, holds⟩ := tileRun_pixels inv start first keeps (Nat.le_refl _)
  exact ⟨u, (tileRun_succ run).trans (tileStep_complete after.busy after.done), after, holds⟩

/-- Settles O31: the tile is busy after each of its pixels, and the next step completes it. -/
theorem tileCompletesAfterItsPixelSteps : Obligations.TileCompletesAfterItsPixelSteps := by
  intro s inv start
  have keeps : ∀ n u, AfterPixels s n u → pixelLeft u = true → True → True := fun _ _ _ _ _ => trivial
  refine ⟨fun n le => ?_, ?_⟩
  · obtain ⟨u, run, after, _⟩ := tileRun_pixels (Q := fun _ _ => True) inv start trivial keeps le
    exact ⟨u, run, after.busy⟩
  · obtain ⟨u, run, _, _⟩ := tileRun_whole (Q := fun _ _ => True) inv start trivial keeps
    refine ⟨completeTile u, run, rfl, rfl, ?_⟩
    rw [completeTile_intStatus, BitVec.getLsbD_or]
    exact Bool.or_true _

end Sys2Proof.Proofs
end

section
/-! PROOFS. A whole tile (41_dither_engine.md R161 to R171): the image of a tile whose decisions are known in advance, the
saturated tiles, and the bound on the accumulator cells. -/

namespace Sys2Proof.Proofs

open Sys2Proof Sys2Proof.Machine Sys2Proof.Claims

/-! ### Pixels of the tile (R13, R150) -/

/-- Raster order numbers the pixels of a tile without repetition. -/
theorem raster_order_inj {w r c r' c' : Nat} (hc : c < w) (hc' : c' < w) (same : r * w + c = r' * w + c') :
    r = r' ∧ c = c' := by
  have row_of (r c : Nat) (hc : c < w) : (r * w + c) / w = r := by
    rw [Nat.mul_comm, Nat.mul_add_div (Nat.zero_lt_of_lt hc), Nat.div_eq_of_lt hc, Nat.add_zero]
  have same_row : r = r' := by rw [← row_of r c hc, same, row_of r' c' hc']
  subst same_row
  exact ⟨rfl, Nat.add_left_cancel same⟩

section
variable {s u : State} {n : Nat} (start : AtTileStart s) (after : AfterPixels s n u)
include start after

/-- In a run of the tile engine alone no source byte changes, so every pixel has the luma that the source memory fixes
(R67). -/
theorem AfterPixels.toNat_readLuma : (readLuma u).1.toNat = tileLuma s u.curR u.curC := by
  obtain ⟨_, _, _, unchanged⟩ := start
  have none_changed : u.srcChanged = [] := (congrArg State.srcChanged after.frame).trans unchanged
  rw [Proofs.toNat_readLuma (by simp [none_changed]) (by simp [none_changed])]
  conv_lhs => rw [after.frame]
  rfl

end

/-- The first `n` pixels of the tile at `s` have the decisions `dark r c`. -/
def ImageUpTo (s : State) (dark : Nat → Nat → Bool) (n : Nat) (u : State) : Prop :=
  ∀ r c, c < s.lw.toNat → r * s.lw.toNat + c < n → rasterPixel u (s.lx.toNat + c) (s.ly.toNat + r) = dark r c

/-- A pixel step with the expected decision adds its pixel to the image and leaves the earlier ones. -/
theorem imageUpTo_pixel {s u : State} {n : Nat} {dark : Nat → Nat → Bool} (after : AfterPixels s n u)
    (left : pixelLeft u = true) (decided : (cursorPixel u).1 = dark u.curR u.curC) (image : ImageUpTo s dark n u) :
    ImageUpTo s dark (n + 1) (pixelEffect u) := by
  intro r c hc below
  have tile := after.inv.tile after.busy
  obtain ⟨column, _⟩ := curC_lt tile left
  have padded := width_le_padded u.cfg
  have x_fits := tile.x_fits
  have lx : u.lx = s.lx := (congrArg State.lx after.frame :)
  have ly : u.ly = s.ly := (congrArg State.ly after.frame :)
  have x_lt : pixelX u < 8 * u.cfg.bytesPerRow := by unfold pixelX; omega
  have x'_lt : s.lx.toNat + c < 8 * u.cfg.bytesPerRow := by
    rw [lx, after.lw_eq] at x_fits
    omega
  rw [rasterPixel_pixelEffect, rasterPixel_pixelWrite after.inv.memory.raster_wf _ x_lt x'_lt]
  rw [after.lw_eq] at column
  split_ifs with here
  · obtain ⟨same_x, same_y⟩ := here
    unfold pixelX at same_x
    unfold pixelY at same_y
    rw [lx] at same_x
    rw [ly] at same_y
    rw [Nat.add_left_cancel same_x, Nat.add_left_cancel same_y]
    exact decided
  · refine image r c hc (Nat.lt_of_le_of_ne (Nat.lt_succ_iff.mp below) fun same => here ?_)
    obtain ⟨same_row, same_column⟩ := raster_order_inj hc column (same.trans after.position.symm)
    rw [same_row, same_column, pixelX, pixelY, lx, ly]
    exact ⟨rfl, rfl⟩

/-- Every pixel of the tile comes before its end in raster order. -/
theorem raster_order_lt {w h r c : Nat} (hr : r < h) (hc : c < w) : r * w + c < w * h := by
  calc r * w + c
    _ < r * w + w := Nat.add_lt_add_left hc _
    _ = (r + 1) * w := (Nat.succ_mul _ _).symm
    _ ≤ h * w := Nat.mul_le_mul_right _ hr
    _ = w * h := Nat.mul_comm _ _

/-! ### DISABLED and ORDERED (R161, R162) -/

/-- The threshold of a pixel of a stateless tile: 128, or Bayer's at the absolute raster coordinates. -/
def pixelThreshold (s : State) (r c : Nat) : Nat :=
  if s.algo = .disabled then 128
  else s.cfg.bayer.getD (8 * ((s.ly.toNat + r) % 8) + (s.lx.toNat + c) % 8) 0 * 4 + 2

theorem cursorPixel_stateless {s : State} (h : s.algo = .disabled ∨ s.algo = .ordered) :
    (cursorPixel s).1 = decide ((readLuma s).1.toNat < pixelThreshold s s.curR s.curC) := by
  rcases h with h | h <;> simp only [cursorPixel, pixelThreshold, h] <;> rfl

/-- Settles O33. Each step's decision is its pixel's, from the luma that the source memory fixes, so the image grows
pixel by pixel; the completion step leaves it. -/
theorem statelessTileThresholdsEveryPixel : Obligations.StatelessTileThresholdsEveryPixel := by
  intro s t inv start stateless run r c hr hc
  have keeps : ∀ n u, AfterPixels s n u → pixelLeft u = true →
      ImageUpTo s (fun r c => decide (tileLuma s r c < pixelThreshold s r c)) n u →
      ImageUpTo s (fun r c => decide (tileLuma s r c < pixelThreshold s r c)) (n + 1) (pixelEffect u) := by
    intro n u after left image
    have algo : u.algo = s.algo := (congrArg State.algo after.frame :)
    have threshold : pixelThreshold u u.curR u.curC = pixelThreshold s u.curR u.curC := by
      conv_lhs => rw [after.frame]
      rfl
    refine imageUpTo_pixel after left ?_ image
    rw [cursorPixel_stateless (algo ▸ stateless), after.toNat_readLuma start, threshold]
  obtain ⟨u, whole, _, image⟩ := tileRun_whole inv start (fun r c _ below => absurd below (Nat.not_lt_zero _)) keeps
  obtain rfl : completeTile u = t := Host.Outcome.next.inj (whole.symm.trans run)
  exact image r c hc (raster_order_lt hr hc)

/-! ### Accumulator cells of a running tile (R164 to R167) -/

/-- The rows of a running error-diffusion tile hold every cell that its pixels touch (R142). -/
theorem holdsPixel_of_running {s : State} (inv : MachineInv s) (busy : s.busy = true) (left : pixelLeft s = true)
    (h : s.algo = .ed2 ∨ s.algo = .ed3) : HoldsPixel s.algo s.curC s.acc := by
  have diffusing : diffuses s.algo = true := by rcases h with h | h <;> rw [h] <;> rfl
  obtain ⟨column, _⟩ := curC_lt (inv.tile busy) left
  obtain ⟨_, width⟩ := (inv.tile busy).alloc diffusing
  have cells := inv.registers.accWidth_le
  have row0 := inv.memory.row0_length
  have row1 := inv.memory.row1_length
  have row2 := inv.memory.row2_length
  intro j hj
  have j_lt := hj.trans_le (modeRows_le s.algo)
  interval_cases j
  · change _ < s.acc.row0.length; omega
  · change _ < s.acc.row1.length; omega
  · change _ < s.acc.row2.length; omega

/-- The luma that error diffusion takes and the cells that the pixel leaves, before RowStart. -/
theorem cell_cursorPixel {s : State} (inv : MachineInv s) (busy : s.busy = true) (left : pixelLeft s = true)
    (h : s.algo = .ed2 ∨ s.algo = .ed3) {j : Nat} (hj : j < 3) (i : Nat) :
    (cursorPixel s).2.cell j i =
      wrap (s.acc.cell j i + ((modeKernel s.algo).map (contribution (modeRows s.algo) (modeShift s.algo) s.curR s.curC
        (pixelError s.algo (readLuma s).1 s.curR s.curC s.acc) j i)).sum) :=
  cell_ditherPixel h _ _ _ _ _ _ _ (holdsPixel_of_running inv busy left h) hj i

/-- RowStart leaves each cell or zeroes it (R167). -/
theorem cell_rowStart {a : DitherMode} (h : a = .ed2 ∨ a = .ed3) (w r : Nat) (f : AccFile) {j : Nat} (hj : j < 3)
    (i : Nat) : (rowStart a w r f).cell j i =
      if j = (r + modeRows a - 1) % modeRows a ∧ i < w + modePad a then 0 else f.cell j i := by
  have farthest : (r + modeRows a - 1) % modeRows a < 3 := (Nat.mod_lt _ (modeRows_pos h)).trans_le (modeRows_le a)
  rw [rowStart, cell_zeroRow farthest hj]

/-! ### Saturated tiles (R171) -/

/-- A pixel of luma 0 or 255 without error before it leaves none (R163). -/
theorem errOf_saturated {l : Byte} {v : Nat} (saturated : v = 0 ∨ v = 255) (luma_eq : l.toNat = v) : errOf l 0 = 0 := by
  rcases saturated with rfl | rfl <;> simp [errOf, correctedOf, luma_eq]

/-- Without error a pixel contributes nothing. -/
theorem sum_contribution_zero (rows shift r c j i : Nat) (kernel : List KernelEntry) :
    (kernel.map (contribution rows shift r c 0 j i)).sum = 0 :=
  List.sum_eq_zero (List.forall_mem_map.mpr fun n _ => by simp [contribution, floorShift])

/-- The cell that a pixel reads is a cell of the tile (R125). -/
theorem read_cell_in_tile {a : DitherMode} (h : a = .ed2 ∨ a = .ed3) {r c w : Nat} (hc : c < w) :
    r % modeRows a < rowsOf a ∧ c + modeOffset a < w + padOf a := by
  have row := Nat.mod_lt r (modeRows_pos h)
  rw [modeRows_eq] at row
  refine ⟨by rwa [modeRows_eq], ?_⟩
  rcases h with rfl | rfl <;> simp only [modeOffset, padOf] <;> omega

/-- One pixel of a saturated tile: its decision, and cells that stay 0. -/
theorem saturated_pixel {s : State} {v : Nat} (saturated : v = 0 ∨ v = 255) (inv : MachineInv s) (busy : s.busy = true)
    (left : pixelLeft s = true) (h : s.algo = .ed2 ∨ s.algo = .ed3) (luma_eq : (readLuma s).1.toNat = v)
    (zero : CellsZero s) : (cursorPixel s).1 = decide (v = 0) ∧ CellsZero (pixelEffect s) := by
  obtain ⟨column, _⟩ := curC_lt (inv.tile busy) left
  obtain ⟨row_lt, cell_lt⟩ := read_cell_in_tile (r := s.curR) h column
  have read : s.acc.cell (s.curR % modeRows s.algo) (s.curC + modeOffset s.algo) = 0 := zero _ _ row_lt cell_lt
  have no_error : pixelError s.algo (readLuma s).1 s.curR s.curC s.acc = 0 := by
    rw [pixelError, read, errOf_saturated saturated luma_eq]
  refine ⟨?_, fun j i hj hi => ?_⟩
  · rw [cursorPixel, ditherPixel_dark h, read]
    rcases saturated with rfl | rfl <;> simp [correctedOf, luma_eq]
  · rw [pixelEffect_algo] at hj hi
    rw [pixelEffect_lw] at hi
    have j_lt : j < 3 := hj.trans_le (rowsOf_le _)
    have kept : (cursorPixel s).2.cell j i = 0 := by
      rw [cell_cursorPixel inv busy left h j_lt, no_error, sum_contribution_zero, zero j i hj hi]
      rfl
    rw [pixelEffect_acc_diffusing h]
    split_ifs
    · rw [cell_rowStart h _ _ _ j_lt, kept, ite_self]
    · exact kept

/-- Settles O34. Without error the corrected luma is the luma, so every decision is the tile's and every error is 0; the
image grows pixel by pixel and the cells stay 0. -/
theorem saturatedTileLeavesNoError : Obligations.SaturatedTileLeavesNoError := by
  intro s t v saturated inv start zero diffusing luma_eq run
  have keeps : ∀ n u, AfterPixels s n u → pixelLeft u = true →
      ImageUpTo s (fun _ _ => decide (v = 0)) n u ∧ CellsZero u →
      ImageUpTo s (fun _ _ => decide (v = 0)) (n + 1) (pixelEffect u) ∧ CellsZero (pixelEffect u) := by
    rintro n u after left ⟨image, zero⟩
    have algo : u.algo = s.algo := (congrArg State.algo after.frame :)
    obtain ⟨column, row⟩ := curC_lt (after.inv.tile after.busy) left
    rw [after.lw_eq] at column
    rw [after.lh_eq] at row
    have luma_v : (readLuma u).1.toNat = v := by rw [after.toNat_readLuma start, luma_eq _ _ row column]
    obtain ⟨decided, zero'⟩ :=
      saturated_pixel saturated after.inv after.busy left (algo ▸ diffusing) luma_v zero
    exact ⟨imageUpTo_pixel after left decided image, zero'⟩
  obtain ⟨u, whole, _, image, zero'⟩ :=
    tileRun_whole inv start ⟨fun r c _ below => absurd below (Nat.not_lt_zero _), zero⟩ keeps
  obtain rfl : completeTile u = t := Host.Outcome.next.inj (whole.symm.trans run)
  exact ⟨fun r c hr hc => image r c hc (raster_order_lt hr hc), zero'⟩

/-! ### The bound on the cells (R169) -/

/-- The kernel weight that a cell `d` rows below the cursor's row and `x` cells right of cell c has received: all of the
kernel's rows below d, from the earlier pixel rows, and of row d what lies right of x, from the earlier pixels of this
row. -/
def received (a : DitherMode) (d : Nat) (x : Int) : Int :=
  ((modeKernel a).map fun n => if d < n.dy ∨ (d = n.dy ∧ x < n.di) then n.k else 0).sum

/-- The cells of the tile lie within the bound that the weight received puts on them, with the cursor at (r, c). -/
def CellsBounded (a : DitherMode) (w r c : Nat) (f : AccFile) : Prop :=
  ∀ j i, j < modeRows a → i < w + modePad a →
    |f.cell j i| ≤ weightUnit a * received a ((j + modeRows a - r % modeRows a) % modeRows a) ((i : Int) - c)

theorem received_nonneg (a : DitherMode) (d : Nat) (x : Int) : 0 ≤ received a d x := by
  refine List.sum_nonneg (List.forall_mem_map.mpr fun n hn => ?_)
  have weight := (kernel_weights a n hn).1
  split_ifs
  · exact weight
  · exact Int.le_refl 0

/-- A cell never receives more than the whole kernel. -/
theorem received_le (a : DitherMode) (d : Nat) (x : Int) : received a d x ≤ ((modeKernel a).map KernelEntry.k).sum := by
  refine List.sum_le_sum fun n hn => ?_
  have weight := (kernel_weights a n hn).1
  split_ifs
  · exact Int.le_refl _
  · exact weight

/-- With the next row as the cursor's, a cell has received all that it could before. -/
theorem received_next_row (a : DitherMode) (d : Nat) (x x' : Int) : received a (d + 1) x ≤ received a d x' := by
  refine List.sum_le_sum fun n hn => ?_
  have weight := (kernel_weights a n hn).1
  split_ifs <;> omega

theorem weightUnit_nonneg (a : DitherMode) : 0 ≤ weightUnit a := by cases a <;> decide

theorem bound_le {a : DitherMode} (h : a = .ed2 ∨ a = .ed3) (d : Nat) (x : Int) : weightUnit a * received a d x ≤ 128 := by
  rw [← kernel_total h]
  exact Int.mul_le_mul_of_nonneg_left (received_le a d x) (weightUnit_nonneg a)

/-- Which neighbour lands in a cell of the ring, by its distance from the cursor (R164 to R166). -/
theorem lands_ring_iff {a : DitherMode} (h : a = .ed2 ∨ a = .ed3) (r : Nat) {c j i dy di : Nat} (hj : j < modeRows a)
    (hdy : dy < modeRows a) :
    (j = (r + dy) % modeRows a ∧ i = c + di) ↔
      ((j + modeRows a - r % modeRows a) % modeRows a = dy ∧ (i : Int) - c = di) := by
  rcases h with rfl | rfl <;> simp only [modeRows] at * <;> omega

section
variable {a : DitherMode} (h : a = .ed2 ∨ a = .ed3)
include h

/-- One neighbour adds to a cell of the ring at most the unit times the weight that the cell receives with it. -/
theorem contribution_bound {err : Int} (err_bounds : -127 ≤ err ∧ err ≤ 127) (r c : Nat) {j : Nat}
    (hj : j < modeRows a) (i : Nat) {n : KernelEntry} (hn : n ∈ modeKernel a) {d : Nat} {x : Int}
    (hd : d = (j + modeRows a - r % modeRows a) % modeRows a) (hx : x = (i : Int) - c) :
    |contribution (modeRows a) (modeShift a) r c err j i n| ≤
      weightUnit a * ((if d < n.dy ∨ (d = n.dy ∧ x - 1 < n.di) then n.k else 0) -
        (if d < n.dy ∨ (d = n.dy ∧ x < n.di) then n.k else 0)) := by
  have weight := kernel_weights a n hn
  simp only [contribution, lands_ring_iff h r hj (kernel_reach a n hn).2, ← hd, ← hx]
  by_cases lands : d = n.dy ∧ x = n.di
  · rw [if_pos lands, if_pos (by omega), if_neg (by omega), sub_zero, abs_le]
    exact floorShift_bounds h err_bounds weight
  · rw [if_neg lands, abs_zero]
    refine mul_nonneg (weightUnit_nonneg a) ?_
    split_ifs <;> omega

/-- A pixel of bounded error adds to each cell of the ring at most the unit times the weight that it adds. -/
theorem sum_contribution_bound {err : Int} (err_bounds : -127 ≤ err ∧ err ≤ 127) (r c : Nat) {j : Nat}
    (hj : j < modeRows a) (i : Nat) {d : Nat} {x : Int} (hd : d = (j + modeRows a - r % modeRows a) % modeRows a)
    (hx : x = (i : Int) - c) :
    |((modeKernel a).map (contribution (modeRows a) (modeShift a) r c err j i)).sum| ≤
      weightUnit a * (received a d (x - 1) - received a d x) := by
  have one := fun n hn => contribution_bound h err_bounds r c hj i (n := n) hn hd hx
  unfold received
  generalize modeKernel a = kernel at one
  induction kernel with
  | nil => simp
  | cons n kernel ih =>
    obtain ⟨head, tail⟩ := List.forall_mem_cons.mp one
    simp only [List.map_cons, List.sum_cons]
    linarith [abs_add_le (contribution (modeRows a) (modeShift a) r c err j i n)
      ((kernel.map (contribution (modeRows a) (modeShift a) r c err j i)).sum), ih tail]

/-- A pixel keeps the bound, with the cursor one column on. -/
theorem cellsBounded_pixel {w r c : Nat} {f g : AccFile} {err : Int} (err_bounds : -127 ≤ err ∧ err ≤ 127)
    (cells : ∀ j i, j < modeRows a → g.cell j i = wrap (f.cell j i +
      ((modeKernel a).map (contribution (modeRows a) (modeShift a) r c err j i)).sum))
    (bounded : CellsBounded a w r c f) : CellsBounded a w r (c + 1) g := by
  intro j i hj hi
  have before := bounded j i hj hi
  have added := sum_contribution_bound h err_bounds r c hj i rfl rfl
  have whole := bound_le h ((j + modeRows a - r % modeRows a) % modeRows a) ((i : Int) - c - 1)
  have column : (i : Int) - (c + 1 : Nat) = (i : Int) - c - 1 := by omega
  rw [cells j i hj, column]
  rw [mul_sub] at added
  rw [abs_le] at before added
  have in_range : wrap (f.cell j i +
      ((modeKernel a).map (contribution (modeRows a) (modeShift a) r c err j i)).sum) =
      f.cell j i + ((modeKernel a).map (contribution (modeRows a) (modeShift a) r c err j i)).sum := by
    unfold wrap
    omega
  rw [in_range, abs_le]
  omega

/-- RowStart keeps the bound, with the cursor at the start of the next row (R167). -/
theorem cellsBounded_rowStart {w r c : Nat} {f : AccFile} (bounded : CellsBounded a w r c f) :
    CellsBounded a w (r + 1) 0 (rowStart a w (r + 1) f) := by
  intro j i hj hi
  rw [cell_rowStart h _ _ _ (hj.trans_le (modeRows_le a))]
  split_ifs with zeroed
  · rw [abs_zero]
    exact mul_nonneg (weightUnit_nonneg a) (received_nonneg a _ _)
  · have nearer : (j + modeRows a - r % modeRows a) % modeRows a =
        (j + modeRows a - (r + 1) % modeRows a) % modeRows a + 1 := by
      have other : j ≠ (r + 1 + modeRows a - 1) % modeRows a := fun same => zeroed ⟨same, hi⟩
      rcases h with rfl | rfl <;> simp only [modeRows] at * <;> omega
    refine (bounded j i hj hi).trans (mul_le_mul_of_nonneg_left ?_ (weightUnit_nonneg a))
    rw [nearer]
    exact received_next_row a _ _ _

end

theorem cellsBounded_of_zero {s : State} (zero : CellsZero s) : CellsBounded s.algo s.lw.toNat 0 0 s.acc := by
  intro j i hj hi
  rw [modeRows_eq] at hj
  rw [modePad_eq] at hi
  rw [zero j i hj hi, abs_zero]
  exact mul_nonneg (weightUnit_nonneg _) (received_nonneg _ _ _)

/-- The bound during a tile: at the cursor while a row is left, and at some cursor in any case. -/
def BoundedSoFar (s u : State) : Prop :=
  (u.curR < s.lh.toNat → CellsBounded s.algo s.lw.toNat u.curR u.curC u.acc) ∧
    ∃ r c, CellsBounded s.algo s.lw.toNat r c u.acc

theorem boundedSoFar_pixel {s u : State} {n : Nat} (h : s.algo = .ed2 ∨ s.algo = .ed3) (after : AfterPixels s n u)
    (left : pixelLeft u = true) (bounded : BoundedSoFar s u) : BoundedSoFar s (pixelEffect u) := by
  have algo : u.algo = s.algo := (congrArg State.algo after.frame :)
  obtain ⟨_, row⟩ := curC_lt (after.inv.tile after.busy) left
  rw [after.lh_eq] at row
  rw [← algo] at h
  have pixel : CellsBounded s.algo s.lw.toNat u.curR (u.curC + 1) (cursorPixel u).2 := by
    rw [← algo]
    exact cellsBounded_pixel h (errOf_bounds _ _)
      (fun j i hj => cell_cursorPixel after.inv after.busy left h (hj.trans_le (modeRows_le _)) i)
      (algo ▸ bounded.1 row)
  rw [BoundedSoFar, pixelEffect_acc_diffusing h, pixelEffect_curR, pixelEffect_curC, after.lw_eq, after.lh_eq]
  by_cases last : u.curC + 1 = s.lw.toNat
  · by_cases further : u.curR + 1 < s.lh.toNat
    · have started := cellsBounded_rowStart h (algo ▸ pixel)
      simp only [last, further, and_self, if_true]
      rw [← algo]
      exact ⟨fun _ => started, _, _, started⟩
    · simp only [last, further, and_false, if_true, if_false]
      exact ⟨nofun, _, _, pixel⟩
  · simp only [last, false_and, if_false]
    exact ⟨fun _ => pixel, _, _, pixel⟩

/-- After any number of steps the tile engine is in the state after some number of pixels, or in its completion. -/
theorem tileRun_outcome {s t : State} (inv : MachineInv s) (start : AtTileStart s) {Q : Nat → State → Prop}
    (first : Q 0 s) (keeps : ∀ n u, AfterPixels s n u → pixelLeft u = true → Q n u → Q (n + 1) (pixelEffect u)) {n : Nat}
    (run : tileRun n s = .next t) : ∃ m u, AfterPixels s m u ∧ Q m u ∧ (t = u ∨ t = completeTile u) := by
  by_cases le : n ≤ s.lw.toNat * s.lh.toNat
  · obtain ⟨u, run', after, holds⟩ := tileRun_pixels inv start first keeps le
    exact ⟨n, u, after, holds, .inl (Host.Outcome.next.inj (run.symm.trans run'))⟩
  · obtain ⟨u, whole, after, holds⟩ := tileRun_whole inv start first keeps
    have stays : ∀ k, tileRun (s.lw.toNat * s.lh.toNat + 1 + k) s = .next (completeTile u) := by
      intro k
      induction k with
      | zero => exact whole
      | succ k ih => exact (tileRun_succ ih).trans (tileStep_idle rfl)
    obtain ⟨k, rfl⟩ := Nat.exists_eq_add_of_le (Nat.not_le.mp le)
    exact ⟨_, u, after, holds, .inr (Host.Outcome.next.inj (run.symm.trans (stays k)))⟩

/-- Settles O35. Each cell lies within the bound that the weight it has received puts on it (`CellsBounded`), and the
weights of a kernel add up to the unit over which it divides, so no bound exceeds 128. -/
theorem accumulatorCellsStayBounded : Obligations.AccumulatorCellsStayBounded := by
  intro s t n inv start zero diffusing run j i hj hi
  have bounded := cellsBounded_of_zero zero
  have first : BoundedSoFar s s := by
    obtain ⟨_, row, column, _⟩ := start
    exact ⟨fun _ => by rw [row, column]; exact bounded, 0, 0, bounded⟩
  obtain ⟨m, u, _, ⟨_, r, c, cells⟩, rfl | rfl⟩ := tileRun_outcome (Q := fun _ => BoundedSoFar s) inv start first
    (fun _ _ after left => boundedSoFar_pixel diffusing after left) run
  all_goals
    rw [← modeRows_eq] at hj
    rw [← modePad_eq] at hi
    exact abs_le.mp ((cells j i hj hi).trans (bound_le diffusing _ _))

end Sys2Proof.Proofs
end

section
/-! PROOFS. Host programs (30_encoding.md R97 to R99): the three writes of `tile`, and one turn of `wait_idle`. -/

namespace Sys2Proof.Proofs

open Sys2Proof Sys2Proof.Machine Sys2Proof.Claims

/-! ### `tile` (R99) -/

theorem packHalves_of_fit {lo hi : Nat} (hlo : lo < 65536) (hhi : hi < 65536) :
    ∃ v, packHalves lo hi = some v ∧ v.toNat = hi * 65536 + lo := by
  have packed : hi <<< 16 ||| lo = hi * 65536 + lo := by
    rw [← Nat.shiftLeft_add_eq_or_of_lt (by exact hlo), Nat.shiftLeft_eq]
  refine ⟨_, if_pos ⟨hlo, hhi⟩, ?_⟩
  rw [packed]
  exact toNat_ofNat_of_lt (by omega)

theorem packHalves_of_misfit {lo hi : Nat} (misfit : 65536 ≤ lo ∨ 65536 ≤ hi) : packHalves lo hi = none :=
  if_neg (by omega)

theorem expandTile_of_misfit {x y w h src : Nat}
    (misfit : 65536 ≤ x ∨ 65536 ≤ y ∨ 65536 ≤ w ∨ 65536 ≤ h ∨ 2 ^ 32 ≤ src) : expandTile x y w h src = none := by
  unfold expandTile
  by_cases origin : 65536 ≤ x ∨ 65536 ≤ y
  · rw [packHalves_of_misfit origin]
  by_cases size : 65536 ≤ w ∨ 65536 ≤ h
  · rw [packHalves_of_misfit size]
    cases packHalves x y <;> rfl
  have source : ¬src < 2 ^ 32 := by omega
  simp only [source, if_false]
  cases packHalves x y <;> cases packHalves w h <;> rfl

/-- A host step whose next transfer writes a register stores what R26 to R34 say, answers OKAY and moves on (R66). -/
theorem agentStep_hostWrite {s u : State} {r : Reg} {v : Word} {rest : List HostOp}
    (next_op : s.program = writeOp r v :: rest) (stored : regWrite r v (setProgram rest s) = some u) :
    agentStep .hostStep s = .next (replied .okay none u) := by
  have transfer : hostStep s = busWrite (regBusOffset r) 32 v (setProgram rest s) := by
    simp only [hostStep, next_op, writeOp]
  have named : regOffset r = (regBusOffset r).toNat := by cases r <;> rfl
  exact transfer.trans (agentStep_registerWrite named stored)

/-- The three writes of `tile`, carried out. -/
theorem runEvents_tile {s : State} (released : s.resetHeld = false) (o z a : Word) (rest : List HostOp) :
    runEvents [.hostStep, .hostStep, .hostStep]
        { s with program := [writeOp .tileOrigin o, writeOp .tileSize z, writeOp .srcAddr a] ++ rest } =
      .next (replied .okay none { s with program := rest, tileOrigin := o, tileSize := z, srcAddr := a }) := by
  rw [runEvents_cons (by exact released) (agentStep_hostWrite (r := .tileOrigin) rfl rfl),
    runEvents_cons (by exact released) (agentStep_hostWrite (r := .tileSize) rfl rfl),
    runEvents_cons (by exact released) (agentStep_hostWrite (r := .srcAddr) rfl rfl)]
  rfl

/-! ### `wait_idle` (R99) -/

theorem statusWord_getLsbD_zero (s : State) : (statusWord s).getLsbD 0 = s.busy := by
  have bit_zero := congrArg (BitVec.getLsbD · 0) (statusWord_bit_busy s)
  cases busy : s.busy <;> simpa [busy] using bit_zero

/-- One turn of the loop: STATUS is read, and the program goes on exactly if no tile runs. -/
theorem handle_waitIdle {s : State} {rest : List HostOp} (released : s.resetHeld = false)
    (waits : s.program = .waitIdle :: rest) :
    handle .hostStep s =
      .next (replied .okay (some (regRead s .status)) (if s.busy = true then s else { s with program := rest })) := by
  have turn : hostStep s = .next (pollStatus rest s) := by simp only [hostStep, waits]
  rw [handle_released _ released, agentStep, turn, pollStatus_eq]
  split_ifs <;> rfl

/-- Settles O59. -/
theorem tileAndWaitIdleTakeEffect : Obligations.TileAndWaitIdleTakeEffect := by
  intro s released
  refine ⟨fun x y w h src => ⟨fun hx hy hw hh hsrc => ?_, expandTile_of_misfit⟩, rfl, fun rest waits =>
    ⟨handle_waitIdle released waits, statusWord_getLsbD_zero s⟩⟩
  obtain ⟨o, origin, o_eq⟩ := packHalves_of_fit hx hy
  obtain ⟨z, size, z_eq⟩ := packHalves_of_fit hw hh
  have expanded : Machine.expand (.tile x y w h src) =
      some [writeOp .tileOrigin o, writeOp .tileSize z, writeOp .srcAddr (BitVec.ofNat 32 src)] := by
    simp only [Machine.expand, expandTile, origin, size, hsrc, if_true]
  exact ⟨_, o, z, _, expanded, runEvents_tile released o z _, o_eq, z_eq, toNat_ofNat_of_lt hsrc⟩

end Sys2Proof.Proofs
end

section
/-! PROOFS. Runs without end (70_reset_and_hazards.md R278): under weak fairness a `wait_idle` ends and a refresh cycle
comes to IDLE. Each has a measure that no event raises, and that the agent in charge lowers whenever it steps. -/

namespace Sys2Proof.Proofs

open Sys2Proof Sys2Proof.Machine

/-! ### Runs and measures -/

section
variable {σ : Nat → State} {ev : Nat → Event}

/-- The state in which the run's event is handled: the one offered, off the schedule again. -/
def unscheduled (s : State) : State := { s with schedule := [] }

theorem run_handle (run : IsRun σ ev) (n : Nat) : handle (ev n) (unscheduled (σ n)) = .next (σ (n + 1)) := by
  rw [unscheduled, ← step_offer]
  exact run n

theorem machineInv_unscheduled {s : State} (inv : MachineInv s) : MachineInv (unscheduled s) :=
  machineInv_of_unread inv rfl

theorem machineInv_run (run : IsRun σ ev) (inv : MachineInv (σ 0)) (n : Nat) : MachineInv (σ n) := by
  induction n with
  | zero => exact inv
  | succ n ih => exact machineInv_handle (machineInv_unscheduled ih) (run_handle run n)

end

/-- A measure that is never raised, and is lowered again and again as long as it is not 0, reaches 0. -/
theorem reaches_zero {μ : Nat → Nat} (antitone : ∀ n, μ (n + 1) ≤ μ n)
    (lowered : ∀ n, (∀ m, n ≤ m → μ m = μ n) → μ n = 0) : ∃ n, μ n = 0 := by
  have never_raised : Antitone μ := antitone_nat_of_succ_le antitone
  suffices below : ∀ v n, μ n ≤ v → ∃ m, μ m = 0 from below _ 0 (Nat.le_refl _)
  intro v
  induction v with
  | zero => exact fun n le => ⟨n, Nat.le_zero.mp le⟩
  | succ v ih =>
    intro n le
    by_cases constant : ∀ m, n ≤ m → μ m = μ n
    · exact ⟨n, lowered n constant⟩
    · push Not at constant
      obtain ⟨m, later, other⟩ := constant
      exact ih m (Nat.lt_succ_iff.mp ((Nat.lt_of_le_of_ne (never_raised later) other).trans_le le))

/-- No agent's step holds reset. -/
theorem resetHeld_agentStep {e : Event} {s t : State} (released : s.resetHeld = false) (no_reset : e ≠ .resetAssert)
    (stepped : agentStep e s = .next t) : t.resetHeld = false := by
  have of_transfer {issues : Word → Prop} {p : List HostOp} {u : State} (effect : TransferEffect issues (setProgram p s) u) :
      u.resetHeld = false := (congrArg State.resetHeld (transferEffect_frame effect)).trans released
  cases e with
  | busRead off size => cases stepped; exact of_transfer (p := s.program) (busRead_effect (fun _ => False) off size s)
  | busWrite off size d =>
    obtain ⟨u, written, effect⟩ := busWrite_effect off size d s
    obtain rfl : u = t := Host.Outcome.next.inj (written.symm.trans stepped)
    exact of_transfer (p := s.program) effect
  | hostStep =>
    obtain ⟨u, stepped', effect⟩ := hostStep_effect s
    obtain rfl : u = t := Host.Outcome.next.inj (stepped'.symm.trans stepped)
    obtain rfl | ⟨p, effect⟩ := effect
    · exact released
    · exact of_transfer effect
  | tileStep =>
    obtain ⟨_, rfl⟩ | ⟨_, _, _, _, _, rfl⟩ | ⟨_, _, rfl⟩ := tileStep_next stepped
    · exact released
    · exact (pixelEffect_resetHeld s).trans released
    · exact released
  | schedStep => cases stepped; exact (congrArg State.resetHeld (schedulerWrites_schedStep s).frame).trans released
  | tick => cases stepped; exact (congrArg State.resetHeld (schedulerWrites_tick s).frame).trans released
  | panelAnswer a => cases stepped; exact (congrArg State.resetHeld (schedulerWrites_panelAnswer a s).frame).trans released
  | srcWrite | elapse | resetRelease => cases stepped; exact released
  | resetAssert => exact absurd rfl no_reset

theorem released_of_no_reset {σ : Nat → State} {ev : Nat → Event} (run : IsRun σ ev) (released : (σ 0).resetHeld = false)
    (no_reset : ∀ n, ev n ≠ .resetAssert) (n : Nat) : (σ n).resetHeld = false := by
  induction n with
  | zero => exact released
  | succ n ih =>
    have stepped := run_handle run n
    rw [handle_released (ev n) (show (unscheduled (σ n)).resetHeld = false from ih)] at stepped
    exact resetHeld_agentStep (s := unscheduled (σ n)) ih (no_reset n) stepped

/-! ### `wait_idle` ends -/

/-- What a waiting host and the tile it waits for consist of. -/
def waitView (s : State) := (s.program, s.busy, s.lw, s.lh, s.curR, s.curC)

/-- The steps of the tile engine that are left. -/
def tileWork (s : State) : Nat :=
  if s.busy then s.lw.toNat * s.lh.toNat - (s.curR * s.lw.toNat + s.curC) + 1 else 0

theorem tileWork_zero_iff (s : State) : tileWork s = 0 ↔ s.busy = false := by
  unfold tileWork
  cases s.busy <;> simp

theorem tileWork_eq {s t : State} (same : waitView t = waitView s) : tileWork t = tileWork s := by
  simp only [waitView, Prod.mk.injEq] at same
  obtain ⟨_, busy, lw, lh, curR, curC⟩ := same
  simp only [tileWork, busy, lw, lh, curR, curC]

/-- The agents other than the host and the tile engine leave both alone, while no reset and no write of its own comes. -/
theorem waitView_agentStep {e : Event} {s t : State} (no_reset : e ≠ .resetAssert)
    (no_write : ∀ off size d, e ≠ .busWrite off size d) (no_host : e ≠ .hostStep) (no_tile : e ≠ .tileStep)
    (stepped : agentStep e s = .next t) : waitView t = waitView s := by
  have of_scheduler {u : State} (writes : SchedulerWrites s u) : waitView u = waitView s := by
    rw [writes.frame]; rfl
  cases e with
  | busRead off size =>
    obtain ⟨r, answered⟩ := busRead_state off size s
    cases stepped
    rw [answered]
    rfl
  | schedStep => cases stepped; exact of_scheduler (schedulerWrites_schedStep s)
  | tick => cases stepped; exact of_scheduler (schedulerWrites_tick s)
  | panelAnswer a => cases stepped; exact of_scheduler (schedulerWrites_panelAnswer a s)
  | srcWrite | elapse | resetRelease => cases stepped; rfl
  | busWrite off size d => exact absurd rfl (no_write off size d)
  | hostStep => exact absurd rfl no_host
  | tileStep => exact absurd rfl no_tile
  | resetAssert => exact absurd rfl no_reset

/-- Every step of the tile engine leaves less work, while a tile runs. -/
theorem tileWork_tileStep {s t : State} (inv : MachineInv s) (busy : s.busy = true) (stepped : tileStep s = .next t) :
    t.program = s.program ∧ tileWork t < tileWork s := by
  obtain ⟨idle, _⟩ | ⟨_, left, _, _, _, rfl⟩ | ⟨_, _, rfl⟩ := tileStep_next stepped
  · rw [idle] at busy; cases busy
  · obtain ⟨column, row⟩ := curC_lt (inv.tile busy) left
    refine ⟨pixelEffect_program s, ?_⟩
    have inside := raster_order_lt row column
    simp only [tileWork, pixelEffect_busy, busy, if_true, pixelEffect_lw, pixelEffect_lh, pixelEffect_curR,
      pixelEffect_curC]
    split_ifs
    · rw [Nat.succ_mul]; omega
    · omega
  · refine ⟨rfl, ?_⟩
    simp only [tileWork, completeTile_busy, busy, if_true]
    exact Nat.succ_pos _

/-- One event of a waiting run: the wait ends, or the host waits on and the tile has no more work than before, and less
after the engine's own step. -/
theorem waiting_step {e : Event} {s t : State} {rest : List HostOp} (inv : MachineInv s) (released : s.resetHeld = false)
    (waits : s.program = .waitIdle :: rest) (no_reset : e ≠ .resetAssert)
    (no_write : ∀ off size d, e ≠ .busWrite off size d) (stepped : handle e s = .next t) :
    (e = .hostStep ∧ s.busy = false ∧ t.program = rest) ∨
    (t.program = .waitIdle :: rest ∧ tileWork t ≤ tileWork s ∧ (e = .hostStep → s.busy = true) ∧
      (e = .tileStep → s.busy = true → tileWork t < tileWork s)) := by
  by_cases host : e = .hostStep
  · subst host
    rw [handle_waitIdle released waits] at stepped
    cases stepped
    cases busy : s.busy with
    | false => exact .inl ⟨rfl, rfl, rfl⟩
    | true => exact .inr ⟨waits, Nat.le_refl _, fun _ => rfl, nofun⟩
  rw [handle_released e released] at stepped
  by_cases tile : e = .tileStep
  · subst tile
    cases busy : s.busy with
    | false =>
      have nothing : s = t := Host.Outcome.next.inj ((tileStep_idle busy).symm.trans stepped)
      subst nothing
      exact .inr ⟨waits, Nat.le_refl _, nofun, fun _ => nofun⟩
    | true =>
      obtain ⟨program, less⟩ := tileWork_tileStep inv busy stepped
      exact .inr ⟨program.trans waits, less.le, nofun, fun _ _ => less⟩
  · have same := waitView_agentStep no_reset no_write host tile stepped
    have program : t.program = s.program := congrArg Prod.fst same
    exact .inr ⟨program.trans waits, (tileWork_eq same).le, fun h => absurd h host, fun h => absurd h tile⟩

section
variable {σ : Nat → State} {ev : Nat → Event} (run : IsRun σ ev) (fair : WeaklyFair σ ev)
include run fair

/-- A fair run ends the wait: by fairness to the tile engine its work comes to 0, and by fairness to the host STATUS is
then read with BUSY = 0. -/
theorem wait_ends (inv : MachineInv (σ 0)) (released : (σ 0).resetHeld = false) {rest : List HostOp}
    (waits : (σ 0).program = .waitIdle :: rest)
    (quiet : ∀ n, ev n ≠ .resetAssert ∧ ∀ off size d, ev n ≠ .busWrite off size d) :
    ∃ n, ev n = .hostStep ∧ (σ n).busy = false ∧ (σ n).program = .waitIdle :: rest ∧ (σ (n + 1)).program = rest := by
  by_contra never
  have released_run := released_of_no_reset run released fun n => (quiet n).1
  have outcome (n : Nat) (waiting : (σ n).program = .waitIdle :: rest) :=
    waiting_step (machineInv_unscheduled (machineInv_run run inv n)) (released_run n) waiting (quiet n).1 (quiet n).2
      (run_handle run n)
  have waiting : ∀ n, (σ n).program = .waitIdle :: rest := by
    intro n
    induction n with
    | zero => exact waits
    | succ n ih =>
      obtain ⟨host, idle, ends⟩ | ⟨on, _⟩ := outcome n ih
      · exact absurd ⟨n, host, idle, ih, ends⟩ never
      · exact on
  have goes_on (n : Nat) : tileWork (σ (n + 1)) ≤ tileWork (σ n) ∧ (ev n = .hostStep → (σ n).busy = true) ∧
      (ev n = .tileStep → (σ n).busy = true → tileWork (σ (n + 1)) < tileWork (σ n)) := by
    obtain ⟨host, idle, ends⟩ | ⟨_, on⟩ := outcome n (waiting n)
    · exact absurd ⟨n, host, idle, waiting n, ends⟩ never
    · exact on
  have idle_once : ∃ n, tileWork (σ n) = 0 := by
    refine reaches_zero (fun n => (goes_on n).1) fun n constant => ?_
    by_contra working
    have busy (m : Nat) (later : n ≤ m) : (σ m).busy = true := by
      rw [← constant m later, tileWork_zero_iff] at working
      simpa using working
    obtain ⟨m, later, engine⟩ := fair .tileEngine n fun m later => ⟨released_run m, busy m later⟩
    have less := (goes_on m).2.2 engine (busy m later)
    rw [constant m later, constant (m + 1) (Nat.le_succ_of_le later)] at less
    exact Nat.lt_irrefl _ less
  obtain ⟨n, idle⟩ := idle_once
  obtain ⟨m, later, host⟩ := fair .host n fun m _ => ⟨released_run m, by simp [waiting m]⟩
  have never_raised : Antitone fun n => tileWork (σ n) := antitone_nat_of_succ_le fun n => (goes_on n).1
  have no_work : tileWork (σ m) = 0 := Nat.le_zero.mp ((never_raised later).trans idle.le)
  have busy := (goes_on m).2.1 host
  rw [(tileWork_zero_iff _).mp no_work] at busy
  cases busy

end

/-! ### A refresh cycle ends -/

/-- What a refresh cycle's progress consists of. -/
def cycleView (s : State) := (s.cfg, s.schedState, s.schedPhase, s.plane, s.drawIndex, s.outstanding)

/-- The answers of the panel and the draw bytes that a cycle has left at most (R203 to R211). -/
def cycleWork (s : State) : Nat :=
  match s.schedPhase with
  | .none => 0
  | .powerOn => s.cfg.panelPlanes * (s.cfg.rasterBytes + 1) + 4
  | .selectLut => s.cfg.panelPlanes * (s.cfg.rasterBytes + 1) + 3
  | .draw => (s.cfg.panelPlanes - s.plane.toNat) * (s.cfg.rasterBytes + 1) - s.drawIndex + 2
  | .refresh => 2
  | .powerOff => 1

theorem cycleWork_eq {s t : State} (same : cycleView t = cycleView s) : cycleWork t = cycleWork s := by
  simp only [cycleView, Prod.mk.injEq] at same
  obtain ⟨cfg, _, phase, plane, index, _⟩ := same
  simp only [cycleWork, cfg, phase, plane, index]

theorem drawing_eq {s t : State} (same : cycleView t = cycleView s) : drawing t = drawing s := by
  simp only [cycleView, Prod.mk.injEq] at same
  obtain ⟨_, _, phase, _, _, outstanding⟩ := same
  simp only [drawing, phase, outstanding]

theorem outstanding_eq_of_view {s t : State} (same : cycleView t = cycleView s) : t.outstanding = s.outstanding :=
  congrArg (fun view => view.2.2.2.2.2) same

/-- The passes left, this one included, leave one over it. -/
theorem passes_left {s : State} (inv : MachineInv s) : ∃ k, s.cfg.panelPlanes - s.plane.toNat = k + 1 :=
  Nat.exists_eq_succ_of_ne_zero (Nat.sub_ne_zero_of_lt inv.scheduler.plane_lt)

theorem cycleWork_schedStep {s : State} (inv : MachineInv s) (drawing_now : drawing s = true) :
    cycleWork (schedStep s) < cycleWork s := by
  have draw_phase := ((drawing_iff s).mp drawing_now).1
  have index := drawIndex_lt inv drawing_now
  obtain ⟨k, passes⟩ := passes_left inv
  have one_less : (s.cfg.panelPlanes - s.plane.toNat) * (s.cfg.rasterBytes + 1) - (s.drawIndex + 1) + 2 <
      (s.cfg.panelPlanes - s.plane.toNat) * (s.cfg.rasterBytes + 1) - s.drawIndex + 2 := by
    rw [passes, Nat.succ_mul]
    omega
  obtain left | last := Nat.lt_or_eq_of_le (Nat.succ_le_of_lt index)
  · rw [schedStep_reads drawing_now left]
    simpa only [cycleWork, draw_phase] using one_less
  · rw [schedStep_issues drawing_now last]
    simpa only [cycleWork, draw_phase, issueRequest_schedPhase, issueRequest_cfg, issueRequest_plane,
      issueRequest_drawIndex] using one_less

/-- With DRAW outstanding the whole raster has been read (R208). -/
theorem drawn_of_outstanding {s : State} (inv : MachineInv s) (outstanding : s.outstanding = some .draw) :
    s.schedPhase = .draw ∧ s.drawIndex = s.cfg.rasterBytes := by
  have phase := phase_of_outstanding inv.scheduler outstanding
  have draw_phase : s.schedPhase = .draw := by
    revert phase; cases s.schedPhase <;> simp [phaseRequest]
  obtain ⟨_, ⟨free, _⟩ | ⟨_, drawn⟩⟩ := inv.scheduler.draw_pass draw_phase
  · rw [free] at outstanding; cases outstanding
  · exact ⟨draw_phase, drawn⟩

theorem cycleWork_onPanelOk {s : State} (inv : MachineInv s) {op : PanelOp} (outstanding : s.outstanding = some op) :
    cycleWork (onPanelOk op { s with outstanding := none }) < cycleWork s := by
  have phase := phase_of_outstanding inv.scheduler outstanding
  cases op with
  | powerOn =>
    have at_phase : s.schedPhase = .powerOn := by revert phase; cases s.schedPhase <;> simp [phaseRequest]
    simp only [cycleWork, at_phase]
    exact Nat.lt_succ_self _
  | selectLut =>
    have at_phase : s.schedPhase = .selectLut := by revert phase; cases s.schedPhase <;> simp [phaseRequest]
    simp only [cycleWork, at_phase]
    exact Nat.lt_succ_self _
  | draw =>
    obtain ⟨draw_phase, drawn⟩ := drawn_of_outstanding inv outstanding
    obtain ⟨k, passes⟩ := passes_left inv
    have work : cycleWork s = k * (s.cfg.rasterBytes + 1) + 3 := by
      simp only [cycleWork, draw_phase, drawn, passes, Nat.succ_mul]
      omega
    rw [work]
    by_cases further : s.plane.toNat + 1 < s.cfg.panelPlanes
    · have planes := inv.registers.legal.panelPlanes_range
      have plane : (s.plane + 1).toNat = s.plane.toNat + 1 := by bv_omega
      have goes : onPanelOk .draw { s with outstanding := none } =
          { s with outstanding := none, plane := s.plane + 1, drawIndex := 0, drawBuf := [] } := nextPlane_of_lt further
      have passes' : s.cfg.panelPlanes - (s.plane.toNat + 1) = k := by omega
      rw [goes]
      simp only [cycleWork, draw_phase, plane, passes']
      omega
    · have goes : onPanelOk .draw { s with outstanding := none } = refreshStart s :=
        nextPlane_of_le (Nat.not_lt.mp further)
      have refresh_work : cycleWork (refreshStart s) = 2 := rfl
      rw [goes, refresh_work]
      omega
  | refresh =>
    have at_phase : s.schedPhase = .refresh := by revert phase; cases s.schedPhase <;> simp [phaseRequest]
    simp only [cycleWork, at_phase]
    exact Nat.lt_succ_self _
  | powerOff =>
    have at_phase : s.schedPhase = .powerOff := by revert phase; cases s.schedPhase <;> simp [phaseRequest]
    simp only [cycleWork, at_phase]
    exact Nat.lt_succ_self _

theorem cycleWork_panelAnswer {s : State} (inv : MachineInv s) {a : PanelAnswer} {op : PanelOp}
    (outstanding : s.outstanding = some op) (still_running : (panelAnswer a s).schedState ≠ .idle) :
    cycleWork (panelAnswer a s) < cycleWork s := by
  obtain ⟨free, _⟩ | ⟨_, answered, _, ok⟩ | ⟨_, _, _, fail⟩ := panelAnswer_cases a s
  · rw [free] at outstanding; cases outstanding
  · rw [ok]; exact cycleWork_onPanelOk inv answered
  · rw [fail] at still_running; exact absurd rfl still_running

/-- One event of a cycle that it does not end: less work is left, or the cycle stands where it was. -/
theorem cycle_effect {e : Event} {s t : State} (inv : MachineInv s) (running : s.schedState ≠ .idle)
    (still_running : t.schedState ≠ .idle) (effect : StepEffect e s t) :
    cycleWork t < cycleWork s ∨ cycleView t = cycleView s := by
  cases effect with
  | outside frame => exact .inr ((congrArg cycleView frame).trans rfl)
  | transfer effect => exact .inr ((congrArg cycleView (transferEffect_frame effect)).trans rfl)
  | pixel =>
    refine .inr ?_
    simp only [cycleView, pixelEffect_cfg, pixelEffect_schedState, pixelEffect_schedPhase, pixelEffect_plane,
      pixelEffect_drawIndex, pixelEffect_outstanding]
  | completion => exact .inr rfl
  | ticked =>
    rw [tick_other fun due => running due.1]
    exact .inr rfl
  | drew =>
    by_cases drawing_now : drawing s = true
    · exact .inl (cycleWork_schedStep inv drawing_now)
    · have nothing : schedStep s = s := if_neg drawing_now
      exact .inr (congrArg cycleView nothing)
  | @answered a =>
    cases outstanding : s.outstanding with
    | none =>
      have nothing : panelAnswer a s = s := by simp only [panelAnswer, outstanding]
      exact .inr (congrArg cycleView nothing)
    | some op => exact .inl (cycleWork_panelAnswer inv outstanding still_running)
  | reset => exact absurd rfl still_running

/-- Where the cycle stands still, the event is neither the scheduler's in a draw pass nor an awaited answer. -/
theorem cycle_step {e : Event} {s t : State} (inv : MachineInv s) (running : s.schedState ≠ .idle)
    (still_running : t.schedState ≠ .idle) (released : s.resetHeld = false) (stepped : handle e s = .next t) :
    cycleWork t < cycleWork s ∨
      (cycleWork t = cycleWork s ∧ cycleView t = cycleView s ∧ (e = .schedStep → drawing s = false) ∧
        ((∃ a, e = .panelAnswer a) → s.outstanding = none)) := by
  obtain less | same := cycle_effect inv running still_running (handle_effect stepped)
  · exact .inl less
  have no_less : ¬cycleWork t < cycleWork s := (cycleWork_eq same).not_lt
  rw [handle_released e released] at stepped
  refine .inr ⟨cycleWork_eq same, same, fun scheduler => ?_, fun ⟨a, panel⟩ => ?_⟩
  · subst scheduler
    cases stepped
    exact Bool.not_eq_true _ ▸ fun drawing_now => no_less (cycleWork_schedStep inv drawing_now)
  · subst panel
    cases stepped
    exact Option.eq_none_iff_forall_ne_some.mpr fun op outstanding =>
      no_less (cycleWork_panelAnswer inv outstanding still_running)

/-- In a cycle the scheduler has a byte to read or a request is outstanding, and work is left. -/
theorem cycle_awaits {s : State} (inv : MachineInv s) (running : s.schedState ≠ .idle) :
    (drawing s = true ∨ s.outstanding ≠ none) ∧ cycleWork s ≠ 0 := by
  have phase : s.schedPhase ≠ .none := fun none => running (inv.scheduler.idle_iff.mpr none)
  have asks := inv.scheduler.outstanding_eq
  refine ⟨?_, ?_⟩
  · by_cases draw_phase : s.schedPhase = .draw
    · exact (em (s.outstanding = none)).imp (fun free => (drawing_iff s).mpr ⟨draw_phase, free⟩) id
    · refine .inr ?_
      rw [asks draw_phase]
      cases at_phase : s.schedPhase <;> simp_all [phaseRequest]
  · unfold cycleWork
    cases at_phase : s.schedPhase with
    | none => exact absurd at_phase phase
    | powerOn | selectLut | draw | refresh | powerOff => exact Nat.succ_ne_zero _

section
variable {σ : Nat → State} {ev : Nat → Event} (run : IsRun σ ev) (fair : WeaklyFair σ ev)
include run fair

/-- A fair run brings a cycle to IDLE: as long as it stands still, either a byte of its draw pass or an answer of the
panel is due, and by fairness to the scheduler or the panel that comes. -/
theorem cycle_ends (inv : MachineInv (σ 0)) (released : (σ 0).resetHeld = false) :
    ∃ n, (σ n).schedState = .idle := by
  by_contra never
  have running (n : Nat) : (σ n).schedState ≠ .idle := fun idle => never ⟨n, idle⟩
  have no_reset (n : Nat) : ev n ≠ .resetAssert := by
    intro reset
    have stepped := run_handle run n
    rw [reset, handle_resetAssert] at stepped
    exact running (n + 1) (congrArg State.schedState (Host.Outcome.next.inj stepped).symm)
  have released_run := released_of_no_reset run released no_reset
  have outcome (n : Nat) : cycleWork (σ (n + 1)) < cycleWork (σ n) ∨
      (cycleWork (σ (n + 1)) = cycleWork (σ n) ∧ cycleView (σ (n + 1)) = cycleView (σ n) ∧
        (ev n = .schedStep → drawing (σ n) = false) ∧ ((∃ a, ev n = .panelAnswer a) → (σ n).outstanding = none)) :=
    cycle_step (s := unscheduled (σ n)) (machineInv_unscheduled (machineInv_run run inv n)) (running n)
      (running (n + 1)) (released_run n) (run_handle run n)
  obtain ⟨n, no_work⟩ := reaches_zero (μ := fun n => cycleWork (σ n))
    (fun n => (outcome n).elim Nat.le_of_lt fun same => same.1.le) fun n constant => by
      have still (m : Nat) (later : n ≤ m) := (outcome m).resolve_left fun less => by
        rw [constant m later, constant (m + 1) (Nat.le_succ_of_le later)] at less
        exact Nat.lt_irrefl _ less
      have stands : ∀ m, n ≤ m → cycleView (σ m) = cycleView (σ n) := fun m later =>
        Nat.le_induction rfl (fun m later ih => (still m later).2.1.trans ih) m later
      obtain byte_due | answer_due := (cycle_awaits (machineInv_run run inv n) (running n)).1
      · have due (m : Nat) (later : n ≤ m) : drawing (σ m) = true := (drawing_eq (stands m later)).trans byte_due
        obtain ⟨m, later, scheduler⟩ := fair .scheduler n fun m later => ⟨released_run m, due m later⟩
        exact absurd ((still m later).2.2.1 scheduler) (by simp [due m later])
      · have due (m : Nat) (later : n ≤ m) : (σ m).outstanding ≠ none :=
          (outstanding_eq_of_view (stands m later)).trans_ne answer_due
        obtain ⟨m, later, panel⟩ := fair .panel n fun m later => ⟨released_run m, due m later⟩
        exact absurd ((still m later).2.2.2 panel) (due m later)
  exact (cycle_awaits (machineInv_run run inv n) (running n)).2 no_work

end

/-- Settles O60. -/
theorem fairRunsEndWaitsAndCycles : Obligations.FairRunsEndWaitsAndCycles :=
  fun _ _ run fair inv released =>
    ⟨fun _ waits quiet => wait_ends run fair inv released waits quiet, fun _ => cycle_ends run fair inv released⟩

end Sys2Proof.Proofs
end
